-- ==== Sys2Proof/Word.lean ====
section
/-! DEFINITION. The words and numbers of the rules: Int32, shifts on exact integers, the clamp of the Real domain
(00_scope.md R8, R9). -/

namespace Sys2Proof

/-- A command word (30_encoding.md R50). -/
abbrev Word := BitVec 64

/-- A 32-bit two's-complement integer, read by `BitVec.toInt` (00_scope.md R8 b). -/
abbrev I32 := BitVec 32

/-- A non-negative Int32, kept as its 31 value bits (10_state.md R22: `inc`, hold counts). -/
abbrev U31 := BitVec 31

/-- The Int32 of a non-negative one. -/
def U31.toI32 (x : U31) : I32 := x.setWidth 32

/-- `a << n` multiplies by `2^n` (00_scope.md R8 b). -/
def shl (a : Int) (n : Nat) : Int := a * 2 ^ n

/-- `a >> n` on a signed value, `floor(a / 2^n)` (00_scope.md R8 b). -/
def asr (a : Int) (n : Nat) : Int := a / 2 ^ n

/-- `x` fits Int32 (00_scope.md R8 b). -/
def fitsI32 (x : Int) : Bool := -2147483648 ≤ x && x ≤ 2147483647

/-- `clamp(v, lo, hi)` of 00_scope.md R9. -/
def clampQ (v lo hi : ℚ) : ℚ := if v < lo then lo else if hi < v then hi else v

end Sys2Proof
end

