-- ==== Sys2Proof/Syntax.lean ====
section
/-! DEFINITION. The commands: one constructor per row of spec/opcode_table.json, with the fields the row uses
(30_encoding.md R53, R54), and what a word decodes to (30_encoding.md R51, R63). -/

namespace Sys2Proof

/-- The 16 commands of 30_encoding.md R53. An operator index is the 8-bit `opi`, a select the 16-bit `sel`, an immediate
the 32-bit `imm32`; `DXKEY` uses bit 0 of `imm32` alone (R55). -/
inductive Instr where
  /-- `NOP` (44_voice_commands.md R162) -/
  | nop
  /-- `INIT sr` (44_voice_commands.md R161) -/
  | init (sr : BitVec 32)
  /-- `WRG s, v` (44_voice_commands.md R165) -/
  | wrg (sel : BitVec 16) (v : BitVec 32)
  /-- `WRP i, s, v` (44_voice_commands.md R164) -/
  | wrp (i : BitVec 8) (sel : BitVec 16) (v : BitVec 32)
  /-- `WRM i, j, w` (44_voice_commands.md R166) -/
  | wrm (i : BitVec 8) (j : BitVec 16) (w : BitVec 32)
  /-- `NOTEON` (44_voice_commands.md R167) -/
  | noteon
  /-- `NOTEOFF` (44_voice_commands.md R168) -/
  | noteoff
  /-- `TICK` (44_voice_commands.md R170) -/
  | tick
  /-- `RENDER n` (44_voice_commands.md R169) -/
  | render (n : BitVec 32)
  /-- `EGSET i` (41_eg_dx7.md R83) -/
  | egset (i : BitVec 8)
  /-- `EGON i` (41_eg_dx7.md R84) -/
  | egon (i : BitVec 8)
  /-- `EGOFF i` (41_eg_dx7.md R85) -/
  | egoff (i : BitVec 8)
  /-- `EGADV i` (41_eg_dx7.md R86) -/
  | egadv (i : BitVec 8)
  /-- `DXKEY i, down` (42_eg_dexed.md R106) -/
  | dxkey (i : BitVec 8) (down : Bool)
  /-- `DXUPD i` (42_eg_dexed.md R110) -/
  | dxupd (i : BitVec 8)
  /-- `DXSMP i, n` (42_eg_dexed.md R107) -/
  | dxsmp (i : BitVec 8) (n : BitVec 32)
deriving DecidableEq, Repr

/-- Why a word is reserved (30_encoding.md R63). -/
inductive Reserved where
  /-- `opc` not in the table of R53 -/
  | opcode
  /-- `WRP` with `sel > 0x0014` -/
  | paramSelect
  /-- `WRG` with `sel > 0x0003` -/
  | globalSelect
  /-- a command of R56 with an index out of range -/
  | index
deriving DecidableEq, Repr

/-- What a 64-bit word is (30_encoding.md R51): a command, or a reserved encoding, kept apart from `NOP` as R63 asks. -/
inductive Decoded where
  | command (i : Instr)
  | reserved (why : Reserved) (w : Word)
deriving DecidableEq, Repr

/-- The per-operator parameter registers `P[i][s]`, selects 0x00..0x14 in this order (10_state.md R12). -/
inductive PReg where
  | egR1 | egR2 | egR3 | egR4 | egL1 | egL2 | egL3 | egL4
  | dxR0 | dxR1 | dxR2 | dxR3 | dxL0 | dxL1 | dxL2 | dxL3
  | ratio | detune | olev | wsel | f0
deriving DecidableEq, Repr

/-- What `WRG` can write, selects 0x0000..0x0003 in this order (10_state.md R16). -/
inductive GReg where
  | f0all | route | fbamt | maxenv
deriving DecidableEq, Repr

end Sys2Proof
end

