-- ==== Sys2Proof/WellFormed.lean ====
section
/-! DEFINITION. Which commands are encodings of 30_encoding.md R53 and none of R63's reserved ones. -/

namespace Sys2Proof

/-- A command is well formed when its select names a register (10_state.md R12, R16). Every other field is legal at every
value (30_encoding.md R54, R55); whether an operator index exists depends on the instance: `Instr.indexOk`. -/
def Instr.wellFormed : Instr → Bool
  | .nop => true
  | .init _ => true
  | .wrg sel _ => decide (sel.toNat ≤ 0x0003)
  | .wrp _ sel _ => decide (sel.toNat ≤ 0x0014)
  | .wrm _ _ _ => true
  | .noteon => true
  | .noteoff => true
  | .tick => true
  | .render _ => true
  | .egset _ => true
  | .egon _ => true
  | .egoff _ => true
  | .egadv _ => true
  | .dxkey _ _ => true
  | .dxupd _ => true
  | .dxsmp _ _ => true

/-- The indices of a command exist in an instance of `nops` operators (30_encoding.md R56). -/
def Instr.indexOk (nops : Nat) : Instr → Bool
  | .nop => true
  | .init _ => true
  | .wrg _ _ => true
  | .wrp i _ _ => decide (i.toNat < nops)
  | .wrm i j _ => decide (i.toNat < nops) && decide (j.toNat < nops)
  | .noteon => true
  | .noteoff => true
  | .tick => true
  | .render _ => true
  | .egset i => decide (i.toNat < nops)
  | .egon i => decide (i.toNat < nops)
  | .egoff i => decide (i.toNat < nops)
  | .egadv i => decide (i.toNat < nops)
  | .dxkey i _ => decide (i.toNat < nops)
  | .dxupd i => decide (i.toNat < nops)
  | .dxsmp i _ => decide (i.toNat < nops)

end Sys2Proof
end

