-- ==== Sys2Proof/Decode.lean ====
section
/-! DEFINITION. The command word of 30_encoding.md R50: its fields, the decoder of R53 and R63, the encoder, and the words a
host keeps in byte-addressed memory (20_memory.md R43). -/

namespace Sys2Proof

/-- `opc`, bits 63:56 (30_encoding.md R50). -/
def opcOf (w : Word) : BitVec 8 := w.extractLsb' 56 8
/-- `opi`, bits 55:48 (30_encoding.md R50). -/
def opiOf (w : Word) : BitVec 8 := w.extractLsb' 48 8
/-- `sel`, bits 47:32 (30_encoding.md R50). -/
def selOf (w : Word) : BitVec 16 := w.extractLsb' 32 16
/-- `imm32`, bits 31:0 (30_encoding.md R50). -/
def immOf (w : Word) : BitVec 32 := w.extractLsb' 0 32

/-- The decoder, on `opc` alone (30_encoding.md R53); unused fields are ignored (R54); reserved opcodes and selects are
named as such (R63). -/
def decode (w : Word) : Decoded :=
  match (opcOf w).toNat with
  | 0x00 => .command .nop
  | 0x01 => .command (.init (immOf w))
  | 0x02 => if (selOf w).toNat ≤ 0x0003 then .command (.wrg (selOf w) (immOf w)) else .reserved .globalSelect w
  | 0x03 => if (selOf w).toNat ≤ 0x0014 then .command (.wrp (opiOf w) (selOf w) (immOf w)) else .reserved .paramSelect w
  | 0x04 => .command (.wrm (opiOf w) (selOf w) (immOf w))
  | 0x08 => .command .noteon
  | 0x09 => .command .noteoff
  | 0x0A => .command .tick
  | 0x0B => .command (.render (immOf w))
  | 0x10 => .command (.egset (opiOf w))
  | 0x11 => .command (.egon (opiOf w))
  | 0x12 => .command (.egoff (opiOf w))
  | 0x13 => .command (.egadv (opiOf w))
  | 0x18 => .command (.dxkey (opiOf w) ((immOf w).getLsbD 0))
  | 0x19 => .command (.dxupd (opiOf w))
  | 0x1A => .command (.dxsmp (opiOf w) (immOf w))
  | _ => .reserved .opcode w

/-- The decoder of an instance with `nops` operators: an index out of range is a reserved encoding too (30_encoding.md R56,
R63). -/
def decodeFor (nops : Nat) (w : Word) : Decoded :=
  match decode w with
  | .command i => if i.indexOk nops then .command i else .reserved .index w
  | .reserved why v => .reserved why v

/-- `W = {opc, opi, sel, imm32}` (30_encoding.md R50). -/
def packWord (opc opi : BitVec 8) (sel : BitVec 16) (imm : BitVec 32) : Word := opc ++ opi ++ sel ++ imm

/-- The opcode of each command (30_encoding.md R53). -/
def opcode : Instr → BitVec 8
  | .nop => 0x00
  | .init _ => 0x01
  | .wrg _ _ => 0x02
  | .wrp _ _ _ => 0x03
  | .wrm _ _ _ => 0x04
  | .noteon => 0x08
  | .noteoff => 0x09
  | .tick => 0x0A
  | .render _ => 0x0B
  | .egset _ => 0x10
  | .egon _ => 0x11
  | .egoff _ => 0x12
  | .egadv _ => 0x13
  | .dxkey _ _ => 0x18
  | .dxupd _ => 0x19
  | .dxsmp _ _ => 0x1A

/-- The `opi` field an assembler writes: the operator index, or 0 where the command has none (30_encoding.md R53, R54). -/
def opiField : Instr → BitVec 8
  | .nop => 0
  | .init _ => 0
  | .wrg _ _ => 0
  | .wrp i _ _ => i
  | .wrm i _ _ => i
  | .noteon => 0
  | .noteoff => 0
  | .tick => 0
  | .render _ => 0
  | .egset i => i
  | .egon i => i
  | .egoff i => i
  | .egadv i => i
  | .dxkey i _ => i
  | .dxupd i => i
  | .dxsmp i _ => i

/-- The `sel` field an assembler writes (30_encoding.md R53, R54). -/
def selField : Instr → BitVec 16
  | .nop => 0
  | .init _ => 0
  | .wrg sel _ => sel
  | .wrp _ sel _ => sel
  | .wrm _ j _ => j
  | .noteon => 0
  | .noteoff => 0
  | .tick => 0
  | .render _ => 0
  | .egset _ => 0
  | .egon _ => 0
  | .egoff _ => 0
  | .egadv _ => 0
  | .dxkey _ _ => 0
  | .dxupd _ => 0
  | .dxsmp _ _ => 0

/-- The `imm32` field an assembler writes (30_encoding.md R53, R54, R55). -/
def immField : Instr → BitVec 32
  | .nop => 0
  | .init sr => sr
  | .wrg _ v => v
  | .wrp _ _ v => v
  | .wrm _ _ w => w
  | .noteon => 0
  | .noteoff => 0
  | .tick => 0
  | .render n => n
  | .egset _ => 0
  | .egon _ => 0
  | .egoff _ => 0
  | .egadv _ => 0
  | .dxkey _ down => if down then 1 else 0
  | .dxupd _ => 0
  | .dxsmp _ n => n

/-- The canonical word of a command, unused fields 0 (30_encoding.md R54). -/
def encode (i : Instr) : Word := packWord (opcode i) (opiField i) (selField i) (immField i)

/-- The word whose low `nbits` bits are those of `w`, every bit above them 0. -/
def tableWord (nbits w : Nat) : Word := BitVec.ofNat 64 (w % 2 ^ nbits)

/-- The command the decoder reads from a table word; `none` where it names a reserved encoding. -/
def decodeTableWord (nbits w : Nat) : Option Instr :=
  match decode (tableWord nbits w) with
  | .command i => some i
  | .reserved _ _ => none

/-- A command word as eight bytes of the host's memory, bits 7:0 at the lowest address (20_memory.md R43). -/
def bytesOfWord (w : Word) : List (BitVec 8) :=
  [w.extractLsb' 0 8, w.extractLsb' 8 8, w.extractLsb' 16 8, w.extractLsb' 24 8,
   w.extractLsb' 32 8, w.extractLsb' 40 8, w.extractLsb' 48 8, w.extractLsb' 56 8]

/-- The command word held in eight bytes, lowest address first (20_memory.md R43); `none` for another number of bytes. -/
def wordOfBytes : List (BitVec 8) → Option Word
  | [b0, b1, b2, b3, b4, b5, b6, b7] => some (b7 ++ b6 ++ b5 ++ b4 ++ b3 ++ b2 ++ b1 ++ b0)
  | _ => none

end Sys2Proof
end

