-- ==== Sys2Proof/Machine/Wrap.lean ====
section
/-! DEFINITION. The two loops of `wrap01` (43_operator_mod_mix.md R135), cut off after a number of turns, and whether they have
ended by then. "Under a floating `rnd` each subtraction rounds": every turn stores through the function `r`. -/

namespace Sys2Proof.Machine

/-- The phase after `while p >= 1: p = p - 1`, at most `k` turns (43_operator_mod_mix.md R135). -/
def wrapDown (r : ℚ → ℚ) : Nat → ℚ → ℚ
  | 0, p => p
  | k + 1, p => if 1 ≤ p then wrapDown r k (r (p - 1)) else p

/-- The phase after `while p < 0: p = p + 1`, at most `k` turns (43_operator_mod_mix.md R135). -/
def wrapUp (r : ℚ → ℚ) : Nat → ℚ → ℚ
  | 0, p => p
  | k + 1, p => if p < 0 then wrapUp r k (r (p + 1)) else p

/-- The phase after the two loops, at most `k` turns each. -/
def wrapLoops (r : ℚ → ℚ) (k : Nat) (p : ℚ) : ℚ := wrapUp r k (wrapDown r k p)

/-- The two loops end within `k` turns each. -/
def wrapEnded (r : ℚ → ℚ) (k : Nat) (p : ℚ) : Bool := decide (wrapDown r k p < 1) && decide (0 ≤ wrapLoops r k p)

end Sys2Proof.Machine
end

