-- ==== Sys2Proof/Machine/Candidate.lean ====
section
/-! DEFINITION. The candidate instances the spec offers for the numeric configuration (00_scope.md R7), and the test-only
values of CFG_T (95_test_vectors.md, section 0). They make up `Config.cfgT`; the device's own configuration is another,
of which only the constraints are known (Config.lean). PRESUMED or DESIGN CHOICE as the rule cited at each says. -/

namespace Sys2Proof

/-- The candidate `LEVEL_LUT` (40_scaling.md R70). -/
def candLevelLut (raw : Fin 20) : Fin 128 :=
  ([0, 5, 9, 13, 17, 20, 23, 25, 27, 29, 31, 33, 35, 37, 39, 41, 42, 43, 45, 46] : List (Fin 128)).getD raw.val 0

/-- `LEVEL_NORM(x) = x / 127` (40_scaling.md R71). -/
def candLevelNorm (x : Fin 128) : ℚ := (x.val : ℚ) / 127

/-- `RATE_CONST_T` (95_test_vectors.md, section 0), test-only. -/
def testRateConst (r : Fin 100) : ℚ := 1 - ((r.val : ℚ) + 1) / 128

/-- The candidate `SRMULT_OF` (44_voice_commands.md R161): 44100 / sr in Q24, saturated. -/
def candSrmultOf (sr : BitVec 32) : U31 := BitVec.ofNat 31 (min (44100 * 2 ^ 24 / sr.toNat) (2 ^ 31 - 1))

/-- The candidate `DX_INC` with `LG_N = 0` (42_eg_dexed.md R104). -/
def candDxInc (q : Fin 64) (m : I32) : U31 :=
  BitVec.ofNat 31 (asr (((4 + (q.val &&& 3)) <<< (2 + (q.val >>> 2)) : Nat) * m.toInt) 24).toNat

/-- The candidate `DX_STATIC` (42_eg_dexed.md R105). -/
def candDxStatic (r : Fin 77) : U31 :=
  BitVec.ofNat 31 (([
    1764000, 1764000, 1411200, 1411200, 1190700, 1014300, 992250, 882000, 705600, 705600,
    584325, 507150, 502740, 441000, 418950, 352800, 308700, 286650, 253575, 220500,
    220500, 176400, 145530, 145530, 125685, 110250, 110250, 88200, 88200, 74970] ++ [
    61740, 61740, 55125, 48510, 44100, 37485, 31311, 30870, 27562, 27562,
    22050, 18522, 17640, 15435, 14112, 13230, 11025, 9261, 9261, 7717,
    6615, 6615, 5512, 5512, 4410, 3969, 3969, 3439, 2866, 2690,
    2249, 1984, 1896, 1808, 1411, 1367, 1234, 1146, 926, 837,
    837, 705, 573, 573, 529, 441, 441] : List Nat).getD r.val 0)

/-- The candidate `DX_RISE` (42_eg_dexed.md R108). -/
def candDxRise (x inc : I32) : Int :=
  let y := if x.toInt < shl 1716 16 then shl 1716 16 else x.toInt
  y + asr (shl 17 24 - y) 24 * inc.toInt

/-- `DX_GAIN_T(v) = v / 2^28` (95_test_vectors.md, section 0), test-only, 0 for a negative level, which no vector has. -/
def testDxGain (v : I32) : ℚ := ((max v.toInt 0 : Int) : ℚ) / 2 ^ 28

/-- `DETUNE_COMBINE(r, d) = r + d` (43_operator_mod_mix.md R133). -/
def candDetuneCombine (r d : ℚ) : ℚ := r + d

/-- The table `FBSHIFT` (43_operator_mod_mix.md R141). -/
def candFbShift (k : Fin 8) : Nat := ([16, 14, 13, 12, 11, 10, 9, 8] : List Nat).getD k.val 16

/-- The integer part of a rational, toward zero. -/
def truncQ (x : ℚ) : Int := if 0 ≤ x then x.floor else -(-x).floor

/-- `toQ24(x)`: the integer part of `x * 2^24` toward zero, saturated to Int32 (43_operator_mod_mix.md R141). -/
def candToQ24 (x : ℚ) : I32 := BitVec.ofInt 32 (max (-2147483648) (min 2147483647 (truncQ (x * 2 ^ 24))))

/-- The candidate `TO_OUT`: signed Q31 with saturation (43_operator_mod_mix.md R145). -/
def candToOut (x : ℚ) : Int := truncQ (clampQ x (-1) (1 - 1 / 2 ^ 31) * 2 ^ 31)

/-- A number of turns within which the loops of `wrap01` end in exact arithmetic (43_operator_mod_mix.md R135). -/
def exactTurns (p : ℚ) : Nat := p.floor.natAbs

/-- The points of [0, 1) at which the sine of one cycle is rational, with its value there. -/
def sinePoints : List (ℚ × ℚ) :=
  [(0, 0), (1 / 12, 1 / 2), (1 / 4, 1), (5 / 12, 1 / 2), (1 / 2, 0), (7 / 12, -1 / 2), (3 / 4, -1), (11 / 12, -1 / 2)]

/-- The first `n` terms of the power series of the sine. -/
def sineSum : Nat → ℚ → ℚ
  | 0, _ => 0
  | n + 1, z => sineSum n z + (-1) ^ n * z ^ (2 * n + 1) / (2 * n + 1).factorial

/-- Pi to 20 places. -/
def piQ : ℚ := 314159265358979323846 / 10 ^ 20

/-- A rational sine of one cycle for CFG_T: the exact value at `sinePoints`, the power series elsewhere. -/
def testSine (x : ℚ) : ℚ :=
  match sinePoints.find? (fun e => e.1 = x) with
  | some e => e.2
  | none => clampQ (sineSum 24 (2 * piQ * x)) (-1) 1

/-- The waveforms of CFG_T (95_test_vectors.md, section 0). The vectors use `WAVE[0]` at multiples of a quarter only. -/
def testWave (k : Fin 4) (x : ℚ) : ℚ :=
  match k with
  | 0 => testSine x
  | 1 => 2 * x - 1
  | 2 => if x < 1 / 2 then 1 else -1
  | 3 => 1 - 4 * |x - 1 / 2|

end Sys2Proof
end

