-- ==== Sys2Proof/Laws/Candidate.lean ====
section
/-! SUPPORT. The candidate and test-only values meet the constraints the rules state: what
`Config.cfgT_valid` cites; and the loops of `wrap01` end in exact arithmetic. -/

namespace Sys2Proof

namespace Machine

theorem wrapDown_lt_one (k : Nat) (p : ℚ) (h : p < k + 1) : wrapDown (fun x => x) k p < 1 := by
  induction k generalizing p with
  | zero => simpa [wrapDown] using h
  | succ k ih =>
    rw [wrapDown]
    split
    · exact ih _ (by push_cast at h; linarith)
    · linarith

theorem wrapDown_nonneg (k : Nat) (p : ℚ) (h : 0 ≤ p) : 0 ≤ wrapDown (fun x => x) k p := by
  induction k generalizing p with
  | zero => exact h
  | succ k ih =>
    rw [wrapDown]
    split
    · exact ih _ (by linarith)
    · exact h

theorem wrapUp_nonneg (k : Nat) (p : ℚ) (h : -(k : ℚ) ≤ p) : 0 ≤ wrapUp (fun x => x) k p := by
  induction k generalizing p with
  | zero => simpa [wrapUp] using h
  | succ k ih =>
    rw [wrapUp]
    split
    · exact ih _ (by push_cast at h; linarith)
    · linarith

/-- In exact arithmetic the loops of `wrap01` end within `exactTurns` turns (43_operator_mod_mix.md R135). -/
theorem wrapEnded_exact (p : ℚ) : wrapEnded (fun x => x) (exactTurns p) p = true := by
  have hf : (p.floor : ℚ) ≤ p := Int.floor_le p
  have hf' : p < (p.floor : ℚ) + 1 := Int.lt_floor_add_one p
  have ha : ((exactTurns p : Nat) : ℚ) = |(p.floor : ℚ)| := by simp [exactTurns]
  have h1 := wrapDown_lt_one (exactTurns p) p (by rw [ha]; linarith [le_abs_self (p.floor : ℚ)])
  rw [wrapEnded, Bool.and_eq_true, decide_eq_true_iff, decide_eq_true_iff]
  refine ⟨h1, wrapUp_nonneg _ _ ?_⟩
  rcases lt_or_ge p 0 with h | h
  · have : wrapDown (fun x => x) (exactTurns p) p = p := by
      cases exactTurns p with
      | zero => rfl
      | succ k => rw [wrapDown, if_neg (by linarith)]
    rw [this, ha]
    linarith [neg_abs_le (p.floor : ℚ)]
  · have := wrapDown_nonneg (exactTurns p) p h
    rw [ha]
    linarith [abs_nonneg (p.floor : ℚ)]

end Machine

theorem candLevelNorm_range (x : Fin 128) : 0 ≤ candLevelNorm x ∧ candLevelNorm x ≤ 1 := by
  have h : (x.val : ℚ) ≤ 127 := by exact_mod_cast Nat.le_of_lt_succ x.isLt
  unfold candLevelNorm
  exact ⟨by positivity, by rw [div_le_one (by norm_num)]; exact h⟩

theorem candLevelNorm_mono (x y : Fin 128) (h : x ≤ y) : candLevelNorm x ≤ candLevelNorm y := by
  have h' : (x.val : ℚ) ≤ y.val := by exact_mod_cast h
  unfold candLevelNorm
  gcongr

theorem testRateConst_range (r : Fin 100) : 0 < testRateConst r ∧ testRateConst r < 1 := by
  have h : (r.val : ℚ) ≤ 99 := by exact_mod_cast Nat.le_of_lt_succ r.isLt
  have h0 : (0 : ℚ) ≤ r.val := by positivity
  unfold testRateConst
  constructor <;> linarith

theorem testRateConst_anti (r s : Fin 100) (h : r ≤ s) : testRateConst s ≤ testRateConst r := by
  have h' : (r.val : ℚ) ≤ s.val := by exact_mod_cast h
  unfold testRateConst
  linarith

theorem candDxRise_gt (x inc : I32) (hi : 1 ≤ inc.toInt) (hx : x.toInt ≤ shl 16 24) :
    x.toInt < candDxRise x inc := by
  have key : ∀ y : Int, x.toInt ≤ y → y ≤ 268435456 → x.toInt < y + asr (shl 17 24 - y) 24 * inc.toInt := by
    intro y h1 h2
    have hf : 1 ≤ asr (shl 17 24 - y) 24 := by unfold asr shl; omega
    nlinarith
  have hx' : x.toInt ≤ 268435456 := by simpa [shl] using hx
  unfold candDxRise
  by_cases h : x.toInt < shl 1716 16
  · simp only [h, if_true]
    exact key _ (by omega) (by simp [shl])
  · simp only [h, if_false]
    exact key _ le_rfl hx'

theorem testDxGain_mono (v w : I32) (h : v.toInt ≤ w.toInt) : testDxGain v ≤ testDxGain w := by
  have h' : ((max v.toInt 0 : Int) : ℚ) ≤ ((max w.toInt 0 : Int) : ℚ) := by
    exact_mod_cast max_le_max_right 0 h
  unfold testDxGain
  gcongr

/-- The imaginary part of the first terms of the exponential series is the first terms of the sine series. -/
theorem sineSum_eq_im (n : Nat) (z : ℚ) :
    (∑ m ∈ Finset.range (2 * n), (((z : ℝ) : ℂ) * Complex.I) ^ m / (m.factorial : ℂ)).im = ((sineSum n z : ℚ) : ℝ) := by
  induction n with
  | zero => simp [sineSum]
  | succ n ih =>
    have h0 : (((z : ℝ) : ℂ) * Complex.I) ^ (2 * n) = (((-1) ^ n * (z : ℝ) ^ (2 * n) : ℝ) : ℂ) := by
      rw [mul_pow, pow_mul Complex.I, Complex.I_sq]; push_cast; ring
    have h1 : (((z : ℝ) : ℂ) * Complex.I) ^ (2 * n + 1) = (((-1) ^ n * (z : ℝ) ^ (2 * n + 1) : ℝ) : ℂ) * Complex.I := by
      rw [pow_succ, h0]; push_cast; ring
    have e : 2 * (n + 1) = 2 * n + 1 + 1 := by ring
    rw [e, Finset.sum_range_succ, Finset.sum_range_succ, Complex.add_im, Complex.add_im, ih, h0, h1, sineSum]
    rw [← Complex.ofReal_natCast (2 * n).factorial, ← Complex.ofReal_natCast (2 * n + 1).factorial, Complex.div_ofReal_im,
      Complex.div_ofReal_im, Complex.ofReal_im, Complex.im_ofReal_mul, Complex.I_im]
    push_cast
    ring

/-- The power series of the sine, cut at 48, over one cycle. -/
theorem sineSum_near (z : ℚ) (h0 : 0 ≤ z) (h1 : z ≤ 13 / 2) :
    |((sineSum 24 z : ℚ) : ℝ) - Real.sin z| ≤ 1 / 2 ^ 62 := by
  have r0 : (0 : ℝ) ≤ z := by exact_mod_cast h0
  have r1 : (z : ℝ) ≤ 13 / 2 := by
    have : (z : ℝ) ≤ ((13 / 2 : ℚ) : ℝ) := by exact_mod_cast h1
    simpa using this
  have hn : ‖((z : ℝ) : ℂ) * Complex.I‖ = z := by simp [abs_of_nonneg r0]
  have hb := Complex.exp_bound' (x := ((z : ℝ) : ℂ) * Complex.I) (n := 48) (by rw [hn]; norm_num; linarith)
  have hi := (Complex.abs_im_le_norm _).trans hb
  rw [Complex.sub_im, sineSum_eq_im 24 z, Complex.exp_ofReal_mul_I_im, hn] at hi
  rw [abs_sub_comm]
  refine hi.trans ?_
  have hp : (z : ℝ) ^ 48 ≤ (13 / 2) ^ 48 := pow_le_pow_left₀ r0 r1 48
  refine (mul_le_mul_of_nonneg_right (div_le_div_of_nonneg_right hp (by positivity)) (by norm_num)).trans ?_
  norm_num [Nat.factorial]

theorem clampQ_bounds (x : ℚ) : -1 ≤ clampQ x (-1) 1 ∧ clampQ x (-1) 1 ≤ 1 := by
  unfold clampQ
  split_ifs <;> constructor <;> linarith

/-- Clamping to [-1, 1] brings a rational no further from a real of that range. -/
theorem clampQ_near (x : ℚ) (r : ℝ) (h0 : -1 ≤ r) (h1 : r ≤ 1) : |((clampQ x (-1) 1 : ℚ) : ℝ) - r| ≤ |(x : ℝ) - r| := by
  unfold clampQ
  split_ifs with h h'
  · have : (x : ℝ) < -1 := by exact_mod_cast h
    rw [abs_of_nonpos (by push_cast; linarith), abs_of_nonpos (by linarith)]
    push_cast; linarith
  · have : (1 : ℝ) < x := by exact_mod_cast h'
    rw [abs_of_nonneg (by push_cast; linarith), abs_of_nonneg (by linarith)]
    push_cast; linarith
  · exact le_rfl

/-- The power series at the rational pi, against the sine of one cycle. -/
theorem sineCycle_near (x : ℚ) (h0 : 0 ≤ x) (h1 : x < 1) :
    |((clampQ (sineSum 24 (2 * piQ * x)) (-1) 1 : ℚ) : ℝ) - Real.sin (2 * Real.pi * (x : ℝ))| ≤ 1 / 2 ^ 60 := by
  have r0 : (0 : ℝ) ≤ x := by exact_mod_cast h0
  have r1 : (x : ℝ) ≤ 1 := by exact_mod_cast h1.le
  refine (clampQ_near _ _ (Real.neg_one_le_sin _) (Real.sin_le_one _)).trans ?_
  have hz := sineSum_near (2 * piQ * x) (by unfold piQ; positivity) (by unfold piQ; linarith)
  have hp : |((2 * piQ * x : ℚ) : ℝ) - 2 * Real.pi * x| ≤ 1 / 2 ^ 62 := by
    have hpi : |(piQ : ℝ) - Real.pi| ≤ 1 / 2 ^ 64 := by
      rw [abs_le]
      have := Real.pi_gt_d20
      have := Real.pi_lt_d20
      constructor <;> norm_num [piQ] at * <;> linarith
    have e : ((2 * piQ * x : ℚ) : ℝ) - 2 * Real.pi * x = 2 * x * ((piQ : ℝ) - Real.pi) := by push_cast; ring
    rw [e, abs_mul, abs_of_nonneg (by positivity)]
    nlinarith [abs_nonneg ((piQ : ℝ) - Real.pi)]
  have hs := (Real.abs_sin_sub_sin_le ((2 * piQ * x : ℚ) : ℝ) (2 * Real.pi * x)).trans hp
  refine (abs_sub_le _ (Real.sin ((2 * piQ * x : ℚ) : ℝ)) _).trans ?_
  linarith

/-- 43_operator_mod_mix.md R137 at the points where the sine is rational. -/
theorem sinePoints_sine (e : ℚ × ℚ) (h : e ∈ sinePoints) : Real.sin (2 * Real.pi * (e.1 : ℝ)) = (e.2 : ℝ) := by
  simp only [sinePoints, List.mem_cons, List.not_mem_nil, or_false] at h
  rcases h with rfl | rfl | rfl | rfl | rfl | rfl | rfl | rfl
  · simp
  · have : 2 * Real.pi * ((1 / 12 : ℚ) : ℝ) = Real.pi / 6 := by push_cast; ring
    rw [this]; simp
  · have : 2 * Real.pi * ((1 / 4 : ℚ) : ℝ) = Real.pi / 2 := by push_cast; ring
    rw [this]; simp
  · have : 2 * Real.pi * ((5 / 12 : ℚ) : ℝ) = Real.pi - Real.pi / 6 := by push_cast; ring
    rw [this, Real.sin_pi_sub]; simp
  · have : 2 * Real.pi * ((1 / 2 : ℚ) : ℝ) = Real.pi := by push_cast; ring
    rw [this]; simp
  · have : 2 * Real.pi * ((7 / 12 : ℚ) : ℝ) = Real.pi / 6 + Real.pi := by push_cast; ring
    rw [this, Real.sin_add_pi]; norm_num
  · have : 2 * Real.pi * ((3 / 4 : ℚ) : ℝ) = Real.pi / 2 + Real.pi := by push_cast; ring
    rw [this, Real.sin_add_pi]; norm_num
  · have : 2 * Real.pi * ((11 / 12 : ℚ) : ℝ) = 2 * Real.pi - Real.pi / 6 := by push_cast; ring
    rw [this, Real.sin_two_pi_sub]; norm_num

theorem testWave_points (e : ℚ × ℚ) (h : e ∈ sinePoints) : testWave 0 e.1 = e.2 := by
  simp only [sinePoints, List.mem_cons, List.not_mem_nil, or_false] at h
  rcases h with rfl | rfl | rfl | rfl | rfl | rfl | rfl | rfl <;>
    norm_num [testWave, testSine, sinePoints, List.find?_cons]

theorem testWave_sine (x : ℚ) (h0 : 0 ≤ x) (h1 : x < 1) :
    |((testWave 0 x : ℚ) : ℝ) - Real.sin (2 * Real.pi * (x : ℝ))| ≤ 1 / 2 ^ 60 := by
  change |((testSine x : ℚ) : ℝ) - _| ≤ _
  unfold testSine
  split
  · next e h =>
    rw [← show e.1 = x by simpa using List.find?_some h, sinePoints_sine e (List.mem_of_find?_eq_some h), sub_self, abs_zero]
    positivity
  · exact sineCycle_near x h0 h1
theorem testSine_range (x : ℚ) : -1 ≤ testSine x ∧ testSine x ≤ 1 := by
  unfold testSine
  split
  · next e h =>
    have : ∀ e ∈ sinePoints, -1 ≤ e.2 ∧ e.2 ≤ 1 := by norm_num [sinePoints]
    exact this e (List.mem_of_find?_eq_some h)
  · exact clampQ_bounds _

theorem testWave_range (k : Fin 4) (x : ℚ) (h0 : 0 ≤ x) (h1 : x < 1) : -1 ≤ testWave k x ∧ testWave k x ≤ 1 := by
  fin_cases k
  · exact testSine_range x
  · simp only [testWave]; constructor <;> linarith
  · simp only [testWave]; split_ifs <;> norm_num
  · have := abs_le.mpr (⟨by linarith, by linarith⟩ : -(1 / 2) ≤ x - 1 / 2 ∧ x - 1 / 2 ≤ 1 / 2)
    have := abs_nonneg (x - 1 / 2)
    simp only [testWave]; constructor <;> linarith

end Sys2Proof
end

