-- ==== Sys2Proof/Config.lean ====
section
/-! DEFINITION. The configuration of an instance: the static parameters of 00_scope.md R6 and the numeric configuration of
00_scope.md R7. The device's numeric configuration is opaque: nothing can be proved of it but the constraints the rules
state (93_implementation_defined.md U5). -/

namespace Sys2Proof

/-- `VARIANT` (00_scope.md R6). -/
inductive Variant where
  | fm | sw
deriving DecidableEq, Repr

/-- Where an Int32 result of the Dexed-style datapath can fall outside Int32 (93_implementation_defined.md U7). -/
inductive Site where
  | target | rise | fall
deriving DecidableEq, Repr

/-- The numeric configuration (00_scope.md R7), every name a total function of its arguments. -/
structure Config where
  /-- `LEVEL_LUT`, each entry in 0..127 (40_scaling.md R70) -/
  levelLut : Fin 20 → Fin 128
  /-- `LEVEL_NORM` (40_scaling.md R71) -/
  levelNorm : Fin 128 → ℚ
  /-- `RATE_CONST` (40_scaling.md R72) -/
  rateConst : Fin 100 → ℚ
  /-- `FRAME_K` (40_scaling.md R73) -/
  frameK : ℚ
  /-- `SRMULT_OF` (44_voice_commands.md R161); non-negative, DEDUCED: notes/assumptions/6.md -/
  srmultOf : BitVec 32 → U31
  /-- `DX_INC`, "required only to return an Int32 >= 0" (42_eg_dexed.md R104) -/
  dxInc : Fin 64 → I32 → U31
  /-- `DX_STATIC` (42_eg_dexed.md R105); non-negative Int32, DEDUCED: notes/assumptions/6.md -/
  dxStatic : Fin 77 → U31
  /-- `DX_RISE` (42_eg_dexed.md R108) -/
  dxRise : I32 → I32 → Int
  /-- `DX_GAIN` (43_operator_mod_mix.md R131) -/
  dxGain : I32 → ℚ
  /-- `MAXENV_MAX` (10_state.md R16) -/
  maxEnvMax : Nat
  /-- `DETUNE_COMBINE` (43_operator_mod_mix.md R133) -/
  detuneCombine : ℚ → ℚ → ℚ
  /-- `F0_MAX` (10_state.md R14) -/
  f0Max : ℚ
  /-- `WAVE[0..3]` (43_operator_mod_mix.md R137) -/
  wave : Fin 4 → ℚ → ℚ
  /-- `FBSHIFT` (43_operator_mod_mix.md R141) -/
  fbShift : Fin 8 → Nat
  /-- `toQ24` (43_operator_mod_mix.md R141) -/
  toQ24 : ℚ → I32
  /-- `TO_OUT` (43_operator_mod_mix.md R145); the sample word as an integer, DESIGN CHOICE: notes/assumptions/12.md -/
  toOut : ℚ → Int
  /-- The Int32 that results where the exact integer does not fit: any value (93_implementation_defined.md U7),
  DESIGN CHOICE: notes/assumptions/10.md -/
  overflow : Site → Int → I32
  /-- The hold count where the exact one does not fit Int32: any that is not negative (93_implementation_defined.md U7,
  10_state.md R22), DESIGN CHOICE: notes/assumptions/10.md -/
  holdOverflow : Int → U31
  /-- `rnd` (00_scope.md R8 a), applied at every assignment to a Real-valued state element and at every turn of the loops of
  `wrap01` (43_operator_mod_mix.md R135): any total function, DESIGN CHOICE on what it is applied to: notes/assumptions/9.md -/
  rnd : ℚ → ℚ
  /-- A number of turns within which the loops of `wrap01` end from this phase, if they end at all (43_operator_mod_mix.md R135,
  60_exceptions.md R182): no parameter of 00_scope.md R7 but a fact about `rnd`, DESIGN CHOICE: notes/assumptions/16.md -/
  wrapTurns : ℚ → Nat

/-- The exact model, `rnd` = identity (00_scope.md R8 a). -/
def Config.Exact (c : Config) : Prop := ∀ x, c.rnd x = x

/-- The constraints the rules put on the numeric configuration (93_implementation_defined.md U5). -/
structure Config.Valid (c : Config) : Prop where
  /-- 40_scaling.md R71: "range [0, 1]" -/
  levelNorm_range : ∀ x, 0 ≤ c.levelNorm x ∧ c.levelNorm x ≤ 1
  /-- 40_scaling.md R71: "monotone non-decreasing" -/
  levelNorm_mono : ∀ x y, x ≤ y → c.levelNorm x ≤ c.levelNorm y
  /-- 40_scaling.md R72: `0 < RATE_CONST[r] < 1` -/
  rateConst_range : ∀ r, 0 < c.rateConst r ∧ c.rateConst r < 1
  /-- 40_scaling.md R72, R75: `RATE_CONST[r+1] <= RATE_CONST[r]` -/
  rateConst_anti : ∀ r s, r ≤ s → c.rateConst s ≤ c.rateConst r
  /-- 40_scaling.md R73: "a positive Real configuration constant" -/
  frameK_pos : 0 < c.frameK
  /-- 42_eg_dexed.md R108: `DX_RISE(x, inc) > x` whenever `inc >= 1` and `x <= 16 << 24` -/
  dxRise_gt : ∀ x inc, 1 ≤ inc.toInt → x.toInt ≤ shl 16 24 → x.toInt < c.dxRise x inc
  /-- 43_operator_mod_mix.md R131: "non-negative" -/
  dxGain_nonneg : ∀ v, 0 ≤ c.dxGain v
  /-- 43_operator_mod_mix.md R131: "non-decreasing" -/
  dxGain_mono : ∀ v w, v.toInt ≤ w.toInt → c.dxGain v ≤ c.dxGain w
  /-- 00_scope.md R7: "positive Real" -/
  f0Max_pos : 0 < c.f0Max
  /-- 43_operator_mod_mix.md R137: "each maps [0,1) to [-1,1]" -/
  wave_range : ∀ k x, 0 ≤ x → x < 1 → -1 ≤ c.wave k x ∧ c.wave k x ≤ 1
  /-- 43_operator_mod_mix.md R137: `WAVE[0](x) = sin(2*pi*x)`. A rational can only approach it where it is irrational: within
  `2^-60`, DESIGN CHOICE: notes/assumptions/7.md -/
  wave_sine : ∀ x, 0 ≤ x → x < 1 → |((c.wave 0 x : ℚ) : ℝ) - Real.sin (2 * Real.pi * (x : ℝ))| ≤ 1 / 2 ^ 60
  /-- 43_operator_mod_mix.md R137: and it is that sine where the sine is rational -/
  wave_sine_rational : ∀ e ∈ sinePoints, c.wave 0 e.1 = e.2
  /-- 43_operator_mod_mix.md R141: "amt 0 ⇒ shift 16" -/
  fbShift_zero : c.fbShift 0 = 16
  /-- 43_operator_mod_mix.md R141: "shift amounts 8–16" -/
  fbShift_range : ∀ k, 8 ≤ c.fbShift k ∧ c.fbShift k ≤ 16
  /-- what `wrapTurns` is: loops that end, within any number of turns, end within that one -/
  wrapTurns_enough : ∀ p n, Machine.wrapEnded c.rnd n p = true → Machine.wrapEnded c.rnd (c.wrapTurns p) p = true

/-- A numeric configuration under which the bounds of 42_eg_dexed.md R113 close: `MAXENV_MAX` at most its value 4064
(10_state.md R16), and increments, table entries and rises no larger than the candidates' (42_eg_dexed.md R104, R105, R108). -/
structure Config.WithinInt32 (c : Config) : Prop where
  maxEnvMax : c.maxEnvMax ≤ 4064
  dxInc : ∀ q m, (c.dxInc q m).toNat ≤ 117440512
  dxStatic : ∀ r, (c.dxStatic r).toNat ≤ 1764000
  dxRise : ∀ x inc : I32, 0 ≤ x.toInt → x.toInt ≤ 251658240 → 1 ≤ inc.toInt → inc.toInt ≤ 117440512 →
    c.dxRise x inc ≤ 2147483647

/-- The test configuration CFG_T (95_test_vectors.md, section 0); its `overflow` and
`holdOverflow` are never used by a vector. -/
def Config.cfgT : Config where
  levelLut := candLevelLut
  levelNorm := candLevelNorm
  rateConst := testRateConst
  frameK := 1
  srmultOf := candSrmultOf
  dxInc := candDxInc
  dxStatic := candDxStatic
  dxRise := candDxRise
  dxGain := testDxGain
  maxEnvMax := 4064
  detuneCombine := candDetuneCombine
  f0Max := 65535 + 65535 / 65536
  wave := testWave
  fbShift := candFbShift
  toQ24 := candToQ24
  toOut := candToOut
  overflow := fun _ _ => 0
  holdOverflow := fun _ => 0
  rnd := fun x => x
  wrapTurns := exactTurns

/-- CFG_T meets every constraint. -/
theorem Config.cfgT_valid : Config.cfgT.Valid where
  levelNorm_range := candLevelNorm_range
  levelNorm_mono := candLevelNorm_mono
  rateConst_range := testRateConst_range
  rateConst_anti := testRateConst_anti
  frameK_pos := by norm_num [Config.cfgT]
  dxRise_gt := candDxRise_gt
  dxGain_nonneg v := by
    have h : (0 : Int) ≤ max v.toInt 0 := le_max_right _ _
    have h' : (0 : ℚ) ≤ ((max v.toInt 0 : Int) : ℚ) := by exact_mod_cast h
    change 0 ≤ testDxGain v
    unfold testDxGain
    positivity
  dxGain_mono := testDxGain_mono
  f0Max_pos := by norm_num [Config.cfgT]
  wave_range := testWave_range
  wave_sine := testWave_sine
  wave_sine_rational := testWave_points
  fbShift_zero := by decide
  fbShift_range := by decide
  wrapTurns_enough p _ _ := Machine.wrapEnded_exact p

/-- A numeric configuration that meets the constraints. -/
abbrev ValidConfig := { c : Config // c.Valid }

/-- Some numeric configuration that meets the constraints: no body, so nothing can be proved of it beyond them. -/
opaque Config.unknown [Inhabited ValidConfig] : ValidConfig

/-- The device's numeric configuration: a free value (00_scope.md R7, 93_implementation_defined.md U5), DESIGN CHOICE:
notes/assumptions/3.md. CFG_T stands here only to show that the constraints can be met. -/
def Config.device : Config := (@Config.unknown ⟨⟨Config.cfgT, Config.cfgT_valid⟩⟩).val

theorem Config.device_valid : Config.device.Valid := (@Config.unknown ⟨⟨Config.cfgT, Config.cfgT_valid⟩⟩).property

/-- Which numeric configuration an instance has: the device's, the device's in exact arithmetic, or the spec's CFG_T, under
which runs can be evaluated. -/
inductive Numeric where
  | device | exact | cfgT
deriving DecidableEq, Repr

/-- The numeric configuration of an instance. -/
def Config.of : Numeric → Config
  | .device => Config.device
  | .exact => { Config.device with rnd := fun x => x, wrapTurns := exactTurns }
  | .cfgT => Config.cfgT

/-- The other constraints say nothing of `rnd`: a valid configuration stays valid in exact arithmetic. -/
theorem Config.Valid.inExact {c : Config} (h : c.Valid) :
    ({ c with rnd := fun x => x, wrapTurns := exactTurns } : Config).Valid :=
  ⟨h.levelNorm_range, h.levelNorm_mono, h.rateConst_range, h.rateConst_anti, h.frameK_pos, h.dxRise_gt, h.dxGain_nonneg,
    h.dxGain_mono, h.f0Max_pos, h.wave_range, h.wave_sine, h.wave_sine_rational, h.fbShift_zero, h.fbShift_range,
    fun p _ _ => Machine.wrapEnded_exact p⟩

theorem Config.of_valid (n : Numeric) : (Config.of n).Valid := by
  cases n
  · exact Config.device_valid
  · exact Config.device_valid.inExact
  · exact Config.cfgT_valid

theorem Config.of_exact : (Config.of .exact).Exact := fun _ => rfl
theorem Config.of_cfgT : (Config.of .cfgT).Exact := fun _ => rfl

end Sys2Proof
end

