-- ==== Sys2Proof/Machine/State.lean ====
section
/-! DEFINITION. The state of the block as plain data (10_state.md R10 to R27), the reasons a step could stop, and the state
at power-on (10_state.md R28). -/

namespace Sys2Proof.Machine

/-- The block raises no fault: "The block has no exceptions: no cause codes, no fault address, no trap"
(60_exceptions.md R180). -/
inductive Fault where
deriving DecidableEq, Repr

/-- Why an instruction would have no meaning. -/
inductive Refusal where
  /-- The host's refusal of an instruction without a meaning: no instruction of this model answers it. Safe. -/
  | notModelled (mnemonic : String)
deriving DecidableEq, Repr

/-- The five steps of the DX7-style engine, numbered 0..4 in this order (10_state.md R19, 41_eg_dx7.md R80). -/
inductive EgStep where
  | e1 | e2 | e3 | esustain | e4
deriving DecidableEq, Repr

/-- A segment descriptor of the step table (10_state.md R19); its link to the next step is wiring: `EgStep.next`. -/
structure Seg where
  /-- `dur`: duration in samples -/
  dur : ℚ
  /-- `dl_df`: per-sample multiplicative level delta -/
  dlDf : ℚ
  /-- `start`: start level -/
  startLevel : ℚ
  /-- `end`: end level, the target -/
  endLevel : ℚ
  /-- `asc`: 1 iff `end > start` -/
  asc : Bool
deriving DecidableEq, Repr

/-- The step table `eg[i].step[0..4]` (10_state.md R19). -/
structure StepTable where
  e1 : Seg
  e2 : Seg
  e3 : Seg
  esustain : Seg
  e4 : Seg
deriving DecidableEq, Repr

/-- The DX7-style engine `eg[i]` (10_state.md R19, R20). -/
structure Eg where
  step : StepTable
  /-- current step -/
  cur : EgStep
  /-- frames spent in the current step, saturating -/
  frame : BitVec 32
  /-- current level -/
  level : ℚ
deriving DecidableEq, Repr

/-- The Dexed-style engine `dx[i]` (10_state.md R22). -/
structure Dx where
  /-- stage index 0..4 -/
  ix : Fin 5
  /-- level accumulator, Q8.24 -/
  level : I32
  /-- target level of the current stage -/
  target : I32
  /-- 1 iff `target > level` when the stage was entered -/
  rising : Bool
  /-- increment magnitude of the current stage -/
  inc : I32
  /-- remaining hold count, 0 for no hold -/
  staticcount : I32
  /-- key held -/
  down : Bool
deriving DecidableEq, Repr

/-- The parameter registers `P[i][0x00..0x14]` of one operator (10_state.md R12 to R15). -/
structure Params where
  egR1 : Fin 100
  egR2 : Fin 100
  egR3 : Fin 100
  egR4 : Fin 100
  egL1 : Fin 100
  egL2 : Fin 100
  egL3 : Fin 100
  egL4 : Fin 100
  dxR0 : Fin 100
  dxR1 : Fin 100
  dxR2 : Fin 100
  dxR3 : Fin 100
  dxL0 : Fin 100
  dxL1 : Fin 100
  dxL2 : Fin 100
  dxL3 : Fin 100
  ratio : ℚ
  detune : ℚ
  olev : ℚ
  wsel : Fin 4
  f0 : ℚ
deriving DecidableEq, Repr

/-- Everything the block holds once per operator (10_state.md R10). -/
structure Operator where
  /-- `P[i]` -/
  p : Params
  /-- `M[i][0..NOPS-1]` (10_state.md R17) -/
  row : List ℚ
  /-- `EGDIRTY[i]` (10_state.md R18) -/
  egDirty : Bool
  /-- `DXDIRTY[i]` (10_state.md R18) -/
  dxDirty : Bool
  /-- `eg[i]` -/
  eg : Eg
  /-- `dx[i]` -/
  dx : Dx
  /-- `ph[i]` (10_state.md R24) -/
  ph : ℚ
  /-- `prev[0][i]` (10_state.md R25) -/
  prev0 : ℚ
  /-- `prev[1][i]` (10_state.md R25) -/
  prev1 : ℚ
deriving DecidableEq, Repr

/-- The global registers `G[s]` (10_state.md R16). -/
structure Globals where
  /-- `SR`, Hz -/
  sr : BitVec 32
  /-- `SRMULT`, Q24 -/
  srmult : I32
  /-- `ROUTE`: false serial, true parallel -/
  route : Bool
  /-- `FBAMT` -/
  fbamt : Fin 8
  /-- `MAXENV` -/
  maxenv : BitVec 32
deriving DecidableEq, Repr

/-- One entry of the response stream (30_encoding.md R52 a). -/
inductive Response where
  /-- a DX7-style level, from `EGADV` -/
  | real (x : ℚ)
  /-- a Dexed-style level, from `DXSMP` -/
  | int (x : I32)
deriving DecidableEq, Repr

/-- One entry of the sample stream (30_encoding.md R52 b). -/
structure Sample where
  /-- the mixer sum -/
  mix : ℚ
  /-- its platform form `TO_OUT(mix)` -/
  out : Int
deriving DecidableEq, Repr

/-- The state of one instance of the block. The first group is the state the spec gives the machine (10_state.md R10); the
second is the model's own: which instance this is (00_scope.md R6, R7: notes/assumptions/2.md, 3.md), the two output
streams (30_encoding.md R52: 4.md), the commands not yet executed (10_state.md R11: 5.md) and whether a loop that never ends is running
(60_exceptions.md R182: 16.md). -/
structure State where
  /-- `INITED` (10_state.md R18) -/
  inited : Bool
  /-- `G` -/
  g : Globals
  /-- the operators 0 .. NOPS-1 -/
  ops : List Operator
  /-- feedback ring, most recent (10_state.md R26) -/
  fb0 : ℚ
  /-- feedback ring, one before (10_state.md R26) -/
  fb1 : ℚ
  /-- `PP` (10_state.md R25) -/
  pp : Bool
  /-- `VARIANT` -/
  variant : Variant
  /-- which numeric configuration -/
  numeric : Numeric
  /-- the response stream, oldest first -/
  responses : List Response
  /-- the sample stream, oldest first -/
  samples : List Sample
  /-- the commands issued and not yet executed, oldest first -/
  port : List Word
  /-- a `wrap01` loop that never ends is running (60_exceptions.md R182) -/
  stuck : Bool
deriving DecidableEq, Repr

/-- `NOPS` of this instance (00_scope.md R6). -/
def State.nops (s : State) : Nat := s.ops.length

/-- The numeric configuration of this instance (00_scope.md R7). -/
def State.cfg (s : State) : Config := Config.of s.numeric

/-- Parameter registers at power-on: the spec gives none (10_state.md R28); DESIGN CHOICE: notes/assumptions/1.md. -/
def Params.powerOn : Params where
  egR1 := 0
  egR2 := 0
  egR3 := 0
  egR4 := 0
  egL1 := 0
  egL2 := 0
  egL3 := 0
  egL4 := 0
  dxR0 := 0
  dxR1 := 0
  dxR2 := 0
  dxR3 := 0
  dxL0 := 0
  dxL1 := 0
  dxL2 := 0
  dxL3 := 0
  ratio := 0
  detune := 0
  olev := 0
  wsel := 0
  f0 := 1

/-- A segment descriptor at power-on. DESIGN CHOICE: notes/assumptions/1.md. -/
def Seg.powerOn : Seg where
  dur := 0
  dlDf := 1
  startLevel := 0
  endLevel := 0
  asc := false

/-- The DX7-style engine at power-on. DESIGN CHOICE: notes/assumptions/1.md. -/
def Eg.powerOn : Eg where
  step := ⟨Seg.powerOn, Seg.powerOn, Seg.powerOn, Seg.powerOn, Seg.powerOn⟩
  cur := .e4
  frame := 0
  level := 0

/-- The Dexed-style engine at power-on, which is also its state after `INIT` (10_state.md R29).
DESIGN CHOICE: notes/assumptions/1.md. -/
def Dx.powerOn : Dx where
  ix := 4
  level := 0
  target := 0
  rising := false
  inc := 0
  staticcount := 0
  down := false

/-- An operator at power-on. DESIGN CHOICE: notes/assumptions/1.md. -/
def Operator.powerOn (nops : Nat) : Operator where
  p := Params.powerOn
  row := List.replicate nops 0
  egDirty := false
  dxDirty := false
  eg := Eg.powerOn
  dx := Dx.powerOn
  ph := 0
  prev0 := 0
  prev1 := 0

/-- Power-on of an instance (10_state.md R28): `INITED = 0`. Every other element holds a value that no rule reads before
`INIT` (44_voice_commands.md R160). DESIGN CHOICE: notes/assumptions/1.md. -/
def State.powerOn (variant : Variant) (nops : Nat) (numeric : Numeric) : State where
  inited := false
  g := { sr := 1, srmult := 0, route := false, fbamt := 0, maxenv := 0 }
  ops := List.replicate nops (Operator.powerOn nops)
  fb0 := 0
  fb1 := 0
  pp := false
  variant := variant
  numeric := numeric
  responses := []
  samples := []
  port := []
  stuck := false

/-- The machine right after reset: power-on of an instance with `VARIANT = FM` and two operators, of which the device's
numeric configuration is known only by its constraints. DESIGN CHOICE (which instance): notes/assumptions/2.md. -/
def State.reset : State := State.powerOn .fm 2 .device

end Sys2Proof.Machine
end

