-- ==== Sys2Proof/Machine/Operands.lean ====
section
/-! DEFINITION. Operand assembly: how `imm32` and the selects are read (30_encoding.md R55, R56), and the clamp of each
register (10_state.md R12 to R17). -/

namespace Sys2Proof.Machine

/-- UQ16.16: `zext_32(imm32) / 65536`, exact (30_encoding.md R55). -/
def uq16 (v : BitVec 32) : ℚ := (v.toNat : ℚ) / 65536

/-- SQ15.16: `sext_32(imm32) / 65536`, exact (30_encoding.md R55). -/
def sq16 (v : BitVec 32) : ℚ := (v.toInt : ℚ) / 65536

/-- A rate or level register: `min(v, 99)` (10_state.md R13). -/
def rateLevelValue (v : BitVec 32) : Fin 100 := ⟨min v.toNat 99, by omega⟩

/-- `RATIO`: no clamp (10_state.md R12, R15). -/
def ratioValue (v : BitVec 32) : ℚ := uq16 v

/-- `DETUNE`: clamped to [-1, 1] (10_state.md R15). -/
def detuneValue (v : BitVec 32) : ℚ := clampQ (sq16 v) (-1) 1

/-- `OLEV` and the matrix weights: `min(v, 1)` (10_state.md R15, R17). -/
def unitValue (v : BitVec 32) : ℚ := min (uq16 v) 1

/-- `WSEL`: `min(v, 3)` (10_state.md R15). -/
def wselValue (v : BitVec 32) : Fin 4 := ⟨min v.toNat 3, by omega⟩

/-- `F0`: `min(max(v, 1), F0_MAX)` (10_state.md R14). -/
def f0Value (c : Config) (v : BitVec 32) : ℚ := min (max (uq16 v) 1) c.f0Max

/-- `ROUTE`: bit 0 (10_state.md R16). -/
def routeValue (v : BitVec 32) : Bool := v.getLsbD 0

/-- `FBAMT`: `min(v, 7)` (10_state.md R16). -/
def fbamtValue (v : BitVec 32) : Fin 8 := ⟨min v.toNat 7, by omega⟩

/-- `MAXENV`: `min(v, MAXENV_MAX)` (10_state.md R16). -/
def maxenvValue (c : Config) (v : BitVec 32) : BitVec 32 := BitVec.ofNat 32 (min v.toNat c.maxEnvMax)

/-- `INIT`'s sample rate: `max(sr, 1)` (44_voice_commands.md R161). -/
def sampleRateValue (v : BitVec 32) : BitVec 32 := if v = 0 then 1 else v

/-- `DXSMP`'s frame count: `min(zext_32(imm32), 2^31 - 1)` (30_encoding.md R55). -/
def dxFrames (v : BitVec 32) : Nat := min v.toNat 2147483647

/-- The parameter register a `WRP` select names, 0x00..0x14; none above (10_state.md R12). -/
def pregOf (sel : BitVec 16) : Option PReg :=
  ([.egR1, .egR2, .egR3, .egR4, .egL1, .egL2, .egL3, .egL4, .dxR0, .dxR1, .dxR2, .dxR3, .dxL0, .dxL1, .dxL2, .dxL3,
    .ratio, .detune, .olev, .wsel, .f0] : List PReg)[sel.toNat]?

/-- What a `WRG` select names, 0x0000..0x0003; nothing above (10_state.md R16). -/
def gregOf (sel : BitVec 16) : Option GReg := ([.f0all, .route, .fbamt, .maxenv] : List GReg)[sel.toNat]?

/-- `P[i][s] <- clampP(s, value(s, imm32))` (44_voice_commands.md R164), a Real through `rnd` (00_scope.md R8 a). -/
def Params.write (c : Config) (p : Params) (r : PReg) (v : BitVec 32) : Params :=
  match r with
  | .egR1 => { p with egR1 := rateLevelValue v }
  | .egR2 => { p with egR2 := rateLevelValue v }
  | .egR3 => { p with egR3 := rateLevelValue v }
  | .egR4 => { p with egR4 := rateLevelValue v }
  | .egL1 => { p with egL1 := rateLevelValue v }
  | .egL2 => { p with egL2 := rateLevelValue v }
  | .egL3 => { p with egL3 := rateLevelValue v }
  | .egL4 => { p with egL4 := rateLevelValue v }
  | .dxR0 => { p with dxR0 := rateLevelValue v }
  | .dxR1 => { p with dxR1 := rateLevelValue v }
  | .dxR2 => { p with dxR2 := rateLevelValue v }
  | .dxR3 => { p with dxR3 := rateLevelValue v }
  | .dxL0 => { p with dxL0 := rateLevelValue v }
  | .dxL1 => { p with dxL1 := rateLevelValue v }
  | .dxL2 => { p with dxL2 := rateLevelValue v }
  | .dxL3 => { p with dxL3 := rateLevelValue v }
  | .ratio => { p with ratio := c.rnd (ratioValue v) }
  | .detune => { p with detune := c.rnd (detuneValue v) }
  | .olev => { p with olev := c.rnd (unitValue v) }
  | .wsel => { p with wsel := wselValue v }
  | .f0 => { p with f0 := c.rnd (f0Value c v) }

/-- `P[i][DX_R0 + s]` (42_eg_dexed.md R101). -/
def Params.dxRate (p : Params) (s : Fin 4) : Fin 100 :=
  match s with
  | 0 => p.dxR0
  | 1 => p.dxR1
  | 2 => p.dxR2
  | 3 => p.dxR3

/-- `P[i][DX_L0 + s]` (42_eg_dexed.md R101). -/
def Params.dxLevel (p : Params) (s : Fin 4) : Fin 100 :=
  match s with
  | 0 => p.dxL0
  | 1 => p.dxL1
  | 2 => p.dxL2
  | 3 => p.dxL3

end Sys2Proof.Machine
end

