-- ==== Sys2Proof/Machine/Flags.lean ====
section
/-! DEFINITION. The flags of 10_state.md R18: the two "needs refresh" flags, the gate `INITED` and the ping-pong index `PP`.
No flag is a side effect of arithmetic; `dx[i].rising` and `dx[i].down` are written by the Dexed-style engine. -/

namespace Sys2Proof.Machine

/-- Selects 0x00..0x07, `EG_R1..EG_L4`, set `EGDIRTY[i]` (44_voice_commands.md R164). -/
def PReg.marksEg : PReg → Bool
  | .egR1 => true
  | .egR2 => true
  | .egR3 => true
  | .egR4 => true
  | .egL1 => true
  | .egL2 => true
  | .egL3 => true
  | .egL4 => true
  | .dxR0 => false
  | .dxR1 => false
  | .dxR2 => false
  | .dxR3 => false
  | .dxL0 => false
  | .dxL1 => false
  | .dxL2 => false
  | .dxL3 => false
  | .ratio => false
  | .detune => false
  | .olev => false
  | .wsel => false
  | .f0 => false

/-- Selects 0x08..0x0F, `DX_R0..DX_L3`, set `DXDIRTY[i]` (44_voice_commands.md R164). -/
def PReg.marksDx : PReg → Bool
  | .egR1 => false
  | .egR2 => false
  | .egR3 => false
  | .egR4 => false
  | .egL1 => false
  | .egL2 => false
  | .egL3 => false
  | .egL4 => false
  | .dxR0 => true
  | .dxR1 => true
  | .dxR2 => true
  | .dxR3 => true
  | .dxL0 => true
  | .dxL1 => true
  | .dxL2 => true
  | .dxL3 => true
  | .ratio => false
  | .detune => false
  | .olev => false
  | .wsel => false
  | .f0 => false

/-- A register write and the "needs refresh" flag it sets (44_voice_commands.md R164, 10_state.md R18). -/
def Operator.writeParam (c : Config) (op : Operator) (r : PReg) (v : BitVec 32) : Operator :=
  { op with
    p := op.p.write c r v
    egDirty := op.egDirty || PReg.marksEg r
    dxDirty := op.dxDirty || PReg.marksDx r }

/-- `DXDIRTY[i] <- 1` (44_voice_commands.md R165, `MAXENV`). -/
def Operator.markDx (op : Operator) : Operator := { op with dxDirty := true }

/-- The gate of 44_voice_commands.md R160: while `INITED = 0` a command changes nothing. -/
def gated (f : State → State) (s : State) : State := if s.inited then f s else s

/-- `PP <- 1 - PP` (43_operator_mod_mix.md R136). -/
def State.togglePp (s : State) : State := { s with pp := !s.pp }

end Sys2Proof.Machine
end

