-- ==== Sys2Proof/Machine/Ops.lean ====
section
/-! DEFINITION. The named operations over the state: the command port, the operators, the matrix, the previous-output
buffers and the two streams. There is no memory (20_memory.md R40) and no exception to take or return from
(60_exceptions.md R180, R185): nothing stands here for either. -/

namespace Sys2Proof.Machine

/-- The oldest waiting command and the state without it (30_encoding.md R51, 20_memory.md R45). -/
def fetch (s : State) : Option (Word × State) :=
  match s.port with
  | [] => none
  | w :: rest => some (w, { s with port := rest })

/-- `respond(v)` for every value given (30_encoding.md R52 a). -/
def State.respond (s : State) (rs : List Response) : State := { s with responses := s.responses ++ rs }

/-- `emit((mix, TO_OUT(mix)))` (30_encoding.md R52 b, 43_operator_mod_mix.md R145). -/
def State.emit (s : State) (mix : ℚ) : State :=
  { s with samples := s.samples ++ [{ mix := mix, out := s.cfg.toOut mix }] }

/-- Act on operator `i` and append what it responds; a no-op that appends nothing if `i >= NOPS` (30_encoding.md R56). -/
def State.onOperator (s : State) (i : BitVec 8) (f : Operator → Operator × List Response) : State :=
  match s.ops[i.toNat]? with
  | none => s
  | some op => State.respond { s with ops := s.ops.set i.toNat (f op).1 } (f op).2

/-- Act on every operator (`for i in 0 .. NOPS-1`). -/
def State.onAll (s : State) (f : Operator → Operator) : State := { s with ops := s.ops.map f }

/-- `prev[b][i]` (10_state.md R25). -/
def Operator.prevAt (op : Operator) (b : Bool) : ℚ := if b then op.prev1 else op.prev0

/-- `prev[b][i] <- y` (10_state.md R25). -/
def Operator.setPrev (c : Config) (op : Operator) (b : Bool) (y : ℚ) : Operator :=
  if b then { op with prev1 := c.rnd y } else { op with prev0 := c.rnd y }

/-- `prev[PP][0..NOPS-1]`, the outputs of the previous sample tick (43_operator_mod_mix.md R136). -/
def State.prevOutputs (s : State) : List ℚ := s.ops.map (fun op => op.prevAt s.pp)

/-- `M[i][j]` (10_state.md R17); 0 where the matrix has no such entry. -/
def State.weight (s : State) (i j : Nat) : ℚ :=
  match s.ops[i]? with
  | none => 0
  | some op => op.row.getD j 0

/-- `M[i][j] <- w` in row `i` (44_voice_commands.md R166). -/
def Operator.setWeight (c : Config) (op : Operator) (j : Nat) (w : ℚ) : Operator :=
  { op with row := op.row.set j (c.rnd w) }

end Sys2Proof.Machine
end

