-- ==== Sys2Proof/Machine/Scaling.lean ====
section
/-! DEFINITION. The rate and level scaling unit: pure functions of their arguments and the configuration tables
(40_scaling.md R70 to R75). -/

namespace Sys2Proof.Machine

/-- `scaleOutputLevel(raw)` (40_scaling.md R70). -/
def scaleOutputLevel (c : Config) (raw : Fin 100) : Fin 128 :=
  if h : raw.val < 20 then c.levelLut ⟨raw.val, h⟩ else ⟨28 + raw.val, by omega⟩

/-- `slev(raw)`: the normalised level (40_scaling.md R71). -/
def slev (c : Config) (raw : Fin 100) : ℚ := c.levelNorm (scaleOutputLevel c raw)

/-- `asc(start, end) = (end > start)`: a flat segment is not ascending (40_scaling.md R72). -/
def ascending (startLevel endLevel : ℚ) : Bool := decide (startLevel < endLevel)

/-- `scaleRate(raw, start, end)`: the per-sample multiplicative delta (40_scaling.md R72). -/
def scaleRate (c : Config) (raw : Fin 100) (startLevel endLevel : ℚ) : ℚ :=
  if ascending startLevel endLevel then 1 / c.rateConst raw else c.rateConst raw

/-- `rateToFrames(raw, start, end)`: the duration in frames, "independent of direction" (40_scaling.md R73). -/
def rateToFrames (c : Config) (raw : Fin 100) (_startLevel _endLevel : ℚ) : ℚ :=
  c.frameK * (19254 / 100) * (8935 / 10000) ^ raw.val

end Sys2Proof.Machine
end

