-- ==== Sys2Proof/Machine/EgDexed.lean ====
section
/-! DEFINITION. The Dexed-style envelope: targets, increments, holds, stage entry, its sample update, and the commands
`DXKEY`, `DXUPD`, `DXSMP` (42_eg_dexed.md R100 to R114). -/

namespace Sys2Proof.Machine

/-- An exact integer stored as Int32. Where it does not fit, the result is a free value of the configuration
(93_implementation_defined.md U7). DESIGN CHOICE: notes/assumptions/10.md. -/
def toI32 (c : Config) (site : Site) (x : Int) : I32 := if fitsI32 x then BitVec.ofInt 32 x else c.overflow site x

/-- The value `a` of `dx_target`, before the shift to Q8.24 (42_eg_dexed.md R102). -/
def dxTargetUnits (c : Config) (g : Globals) (level : Fin 100) : Int :=
  max (shl (asr (scaleOutputLevel c level).val 1) 6 + (g.maxenv.toNat : Int) - 4256) 16

/-- `dx_target(i, s)` (42_eg_dexed.md R102). -/
def dxTarget (c : Config) (g : Globals) (p : Params) (s : Fin 4) : I32 :=
  toI32 c .target (shl (dxTargetUnits c g (p.dxLevel s)) 16)

/-- The rate class `(R * 41) >> 6` (42_eg_dexed.md R104). -/
def rateClass (r : Fin 100) : Fin 64 := ⟨(r.val * 41) / 64, by omega⟩

/-- `DX_INC(q, SRMULT)` of a stage's rate (42_eg_dexed.md R104). -/
def dxIncrement (c : Config) (g : Globals) (r : Fin 100) : I32 := (c.dxInc (rateClass r) g.srmult).toI32

/-- The unscaled hold count: the table, or the fallback `20*(99-rate)` beyond index 76 (42_eg_dexed.md R105). -/
def dxHoldCount (c : Config) (r : Fin 100) : Nat :=
  if h : r.val < 77 then (c.dxStatic ⟨r.val, h⟩).toNat else 20 * (99 - r.val)

/-- `dx_hold(R)`: the count scaled by the sample-rate multiplier (42_eg_dexed.md R105). Where it does not fit Int32, the result
is a free value that is not negative, as 10_state.md R22 has every hold count. DESIGN CHOICE: notes/assumptions/10.md. -/
def dxHold (c : Config) (g : Globals) (r : Fin 100) : I32 :=
  let x := asr ((dxHoldCount c r : Int) * g.srmult.toInt) 24
  if fitsI32 x then BitVec.ofInt 32 x else (c.holdOverflow x).toI32

/-- The micro-operation `dx_advance(i, s)`, the only writer of `ix` besides `INIT` (42_eg_dexed.md R103). -/
def Dx.enter (c : Config) (g : Globals) (p : Params) (d : Dx) (s : Fin 5) : Dx :=
  if h : s.val < 4 then
    let pair : Fin 4 := ⟨s.val, h⟩
    let target := dxTarget c g p pair
    { d with
      ix := s
      target := target
      rising := decide (d.level.toInt < target.toInt)
      inc := dxIncrement c g (p.dxRate pair)
      staticcount := if target = d.level then dxHold c g (p.dxRate pair) else 0 }
  else { d with ix := s }

/-- `ix + 1`; a stage above 4 does not exist (42_eg_dexed.md R107; notes/assumptions/11.md). -/
def stageSucc (s : Fin 5) : Fin 5 := ⟨min (s.val + 1) 4, by omega⟩

/-- The level reached its target: set to it, and the next stage is entered (42_eg_dexed.md R107). -/
def Dx.land (c : Config) (g : Globals) (p : Params) (d : Dx) : Dx :=
  Dx.enter c g p { d with level := d.target } (stageSucc d.ix)

/-- The hold branch of 42_eg_dexed.md R107, for a frame count of `n`. -/
def Dx.holdStep (c : Config) (g : Globals) (p : Params) (d : Dx) (n : Nat) : Dx :=
  if d.staticcount.toInt - n ≤ 0 then Dx.enter c g p { d with staticcount := 0 } (stageSucc d.ix)
  else { d with staticcount := BitVec.ofInt 32 (d.staticcount.toInt - n) }

/-- The level a rising update gives (42_eg_dexed.md R108): never below the one it had, because "rising levels are non-decreasing"
(R113 d) and a level above the candidate's ceiling is stuck (60_exceptions.md R182, 93_implementation_defined.md U8), also above
`17 << 24`, where R108's factor is negative. DEDUCED: notes/assumptions/15.md. -/
def Dx.risen (c : Config) (d : Dx) : Int := max d.level.toInt (c.dxRise d.level d.inc)

/-- The rising update of a moving stage (42_eg_dexed.md R107, R108). With increment 0 the stage is stuck: "a model must keep them
stuck" (60_exceptions.md R182, 42_eg_dexed.md R113 c; DEDUCED for the first call: notes/assumptions/15.md). -/
def Dx.riseStep (c : Config) (g : Globals) (p : Params) (d : Dx) : Dx :=
  if d.inc = 0 then d
  else
    let l := toI32 c .rise (d.risen c)
    if d.target.toInt ≤ l.toInt then Dx.land c g p d else { d with level := l }

/-- The falling update of a moving stage (42_eg_dexed.md R107, R109). With increment 0 a level above the target stays (R113 c), and
a level exactly at the target ends the stage "whatever `inc` is" (R103): DEDUCED, against the letter of R113 c and
60_exceptions.md R182: notes/assumptions/15.md. -/
def Dx.fallStep (c : Config) (g : Globals) (p : Params) (d : Dx) : Dx :=
  let l := toI32 c .fall (d.level.toInt - d.inc.toInt)
  if l.toInt ≤ d.target.toInt then Dx.land c g p d else { d with level := l }

/-- Stages 0, 1, 2 move, and stage 3 while the key is up (42_eg_dexed.md R100). -/
def Dx.moving (d : Dx) : Bool := decide (d.ix.val < 3) || (decide (d.ix.val = 3) && !d.down)

/-- The micro-operation `dx_sample(i, n)`; its result is the level after it (42_eg_dexed.md R107). -/
def Dx.sample (c : Config) (g : Globals) (p : Params) (d : Dx) (n : Nat) : Dx :=
  if 0 < d.staticcount.toInt then Dx.holdStep c g p d n
  else if d.moving then
    if d.rising then Dx.riseStep c g p d else Dx.fallStep c g p d
  else d

/-- `keydown(down)`: acts only on a transition (42_eg_dexed.md R106). -/
def Dx.key (c : Config) (g : Globals) (p : Params) (d : Dx) (down : Bool) : Dx :=
  if d.down ≠ down then Dx.enter c g p { d with down := down } (if down then 0 else 3) else d

/-- `updateDexedEnv()`: acts only in the held sustain stage (42_eg_dexed.md R110). -/
def Dx.update (c : Config) (g : Globals) (p : Params) (d : Dx) : Dx :=
  if d.down = true ∧ d.ix.val = 3 then Dx.enter c g p d 2 else d

/-- `dx_sample(i, n)` on the operator. -/
def Operator.dxSample (c : Config) (g : Globals) (op : Operator) (n : Nat) : Operator :=
  { op with dx := op.dx.sample c g op.p n }

/-- `keydown(down)` on the operator. -/
def Operator.dxKey (c : Config) (g : Globals) (op : Operator) (down : Bool) : Operator :=
  { op with dx := op.dx.key c g op.p down }

/-- `DXUPD i` on the operator: `DXDIRTY[i] <- 0` in every case (42_eg_dexed.md R110). -/
def Operator.dxRefresh (c : Config) (g : Globals) (op : Operator) : Operator :=
  { op with dx := op.dx.update c g op.p, dxDirty := false }

/-- `DXKEY i, down` (42_eg_dexed.md R106). -/
def execDxkey (i : BitVec 8) (down : Bool) (s : State) : Host.Outcome State Fault Refusal :=
  .next (gated (fun s => s.onOperator i (fun op => (op.dxKey s.cfg s.g down, []))) s)

/-- `DXUPD i` (42_eg_dexed.md R110). -/
def execDxupd (i : BitVec 8) (s : State) : Host.Outcome State Fault Refusal :=
  .next (gated (fun s => s.onOperator i (fun op => (op.dxRefresh s.cfg s.g, []))) s)

/-- `DXSMP i, n` (42_eg_dexed.md R107): responds the level after the update. -/
def execDxsmp (i : BitVec 8) (n : BitVec 32) (s : State) : Host.Outcome State Fault Refusal :=
  .next (gated (fun s => s.onOperator i (fun op =>
    (op.dxSample s.cfg s.g (dxFrames n), [.int (op.dxSample s.cfg s.g (dxFrames n)).dx.level]))) s)

end Sys2Proof.Machine
end

