-- ==== Sys2Proof/Machine/EgDx7.lean ====
section
/-! DEFINITION. The DX7-style envelope generator: its step graph and table, its advance, and the commands `EGSET`, `EGON`,
`EGOFF`, `EGADV` (41_eg_dx7.md R80 to R92). -/

namespace Sys2Proof.Machine

/-- The fixed successor of each step (41_eg_dx7.md R80). -/
def EgStep.next : EgStep → EgStep
  | .e1 => .e2
  | .e2 => .e3
  | .e3 => .esustain
  | .esustain => .esustain
  | .e4 => .e4

/-- `eg[i].step[k]` (10_state.md R19). -/
def StepTable.get (t : StepTable) (k : EgStep) : Seg :=
  match k with
  | .e1 => t.e1
  | .e2 => t.e2
  | .e3 => t.e3
  | .esustain => t.esustain
  | .e4 => t.e4

/-- `seg(rate, st, en)` (41_eg_dx7.md R82). -/
def mkSeg (c : Config) (rate : Fin 100) (st en : ℚ) : Seg where
  dur := c.rnd (rateToFrames c rate st en)
  dlDf := c.rnd (scaleRate c rate st en)
  startLevel := c.rnd st
  endLevel := c.rnd en
  asc := ascending st en

/-- The sustain step: the level is held (41_eg_dx7.md R82). -/
def sustainSeg (c : Config) (s3 : ℚ) : Seg where
  dur := c.rnd 0
  dlDf := c.rnd 1
  startLevel := c.rnd s3
  endLevel := c.rnd s3
  asc := false

/-- The step table that `set_dx7` builds from the registers, with the level chain of 41_eg_dx7.md R81 (R82). -/
def buildSteps (c : Config) (p : Params) : StepTable where
  e1 := mkSeg c p.egR1 0 (slev c p.egL1)
  e2 := mkSeg c p.egR2 (slev c p.egL1) (slev c p.egL2)
  e3 := mkSeg c p.egR3 (slev c p.egL2) (slev c p.egL3)
  esustain := sustainSeg c (slev c p.egL3)
  e4 := mkSeg c p.egR4 (slev c p.egL3) 0

/-- The micro-operation `eg_set(i)` (41_eg_dx7.md R82): the running state is not touched. -/
def Operator.egSet (c : Config) (op : Operator) : Operator :=
  { op with eg := { op.eg with step := buildSteps c op.p } }

/-- `eg_set(i); EGDIRTY[i] <- 0` (41_eg_dx7.md R83; the `RENDER` refresh of 44_voice_commands.md R169). -/
def Operator.egRefresh (c : Config) (op : Operator) : Operator := { op.egSet c with egDirty := false }

/-- `note_on` of the engine (41_eg_dx7.md R84). -/
def Eg.noteOn (c : Config) (e : Eg) : Eg := { e with cur := .e1, frame := 0, level := c.rnd 0 }

/-- `note_off` of the engine: the level is kept (41_eg_dx7.md R85). -/
def Eg.noteOff (e : Eg) : Eg := { e with cur := .e4, frame := 0 }

/-- `EPS` (41_eg_dx7.md R86): "a small positive epsilon (1e-4)". -/
def egEps : ℚ := 1 / 10000

/-- `TOL` (41_eg_dx7.md R86): "within 0.001 of the target". -/
def egTol : ℚ := 1 / 1000

/-- `min(frame + 1, 2^32 - 1)` (41_eg_dx7.md R86, 10_state.md R20). -/
def frameSucc (f : BitVec 32) : BitVec 32 := BitVec.ofNat 32 (min (f.toNat + 1) 4294967295)

/-- `max(level, EPS) * dl_df`: clamp, then multiply (41_eg_dx7.md R86). -/
def Eg.moved (e : Eg) : ℚ := max e.level egEps * (e.step.get e.cur).dlDf

/-- Some advance condition of 41_eg_dx7.md R86 holds of the counted frame `f` and the moved level `l`: (a) the frame count
reached the duration, (b) converged, (c) overshoot in the direction of travel. -/
def Seg.done (g : Seg) (f : BitVec 32) (l : ℚ) : Bool :=
  decide (g.dur ≤ (f.toNat : ℚ)) || decide (|l - g.endLevel| < egTol) ||
    (if g.asc then decide (g.endLevel < l) else decide (l < g.endLevel))

/-- The micro-operation `eg_advance(i)` without its result (41_eg_dx7.md R86): on an auto-advance the level is the finished
step's end level (R87); `E4` never auto-advances (R88). Every Real is stored through `rnd` (00_scope.md R8 a). -/
def Eg.advance (c : Config) (e : Eg) : Eg :=
  let f := frameSucc e.frame
  let g := e.step.get e.cur
  if e.cur ≠ .e4 ∧ g.done f e.moved = true then
    { e with cur := e.cur.next, frame := 0, level := c.rnd g.endLevel }
  else
    { e with frame := f, level := c.rnd e.moved }

/-- `eg_advance(i)` on the operator; its result is the pre-advance level `op.eg.level` (41_eg_dx7.md R86, R92). -/
def Operator.egAdvance (c : Config) (op : Operator) : Operator := { op with eg := op.eg.advance c }

/-- `EGSET i` (41_eg_dx7.md R83). -/
def execEgset (i : BitVec 8) (s : State) : Host.Outcome State Fault Refusal :=
  .next (gated (fun s => s.onOperator i (fun op => (op.egRefresh s.cfg, []))) s)

/-- `EGON i` (41_eg_dx7.md R84). -/
def execEgon (i : BitVec 8) (s : State) : Host.Outcome State Fault Refusal :=
  .next (gated (fun s => s.onOperator i (fun op => ({ op with eg := op.eg.noteOn s.cfg }, []))) s)

/-- `EGOFF i` (41_eg_dx7.md R85). -/
def execEgoff (i : BitVec 8) (s : State) : Host.Outcome State Fault Refusal :=
  .next (gated (fun s => s.onOperator i (fun op => ({ op with eg := op.eg.noteOff }, []))) s)

/-- `EGADV i` (41_eg_dx7.md R86): responds the level before the advance. -/
def execEgadv (i : BitVec 8) (s : State) : Host.Outcome State Fault Refusal :=
  .next (gated (fun s => s.onOperator i (fun op => (op.egAdvance s.cfg, [.real op.eg.level]))) s)

end Sys2Proof.Machine
end

