-- ==== Sys2Proof/Machine/SampleTick.lean ====
section
/-! DEFINITION. The operator unit and the level mixer: gain, phase accumulator and detune, modulation summer, output, mixer,
and the micro-operation `sample_tick` (43_operator_mod_mix.md R130 to R149). -/

namespace Sys2Proof.Machine

/-- `wrap01(p)`: the phase its two loops leave (43_operator_mod_mix.md R135), where they end. -/
def wrap01 (c : Config) (p : ℚ) : ℚ := wrapLoops c.rnd (c.wrapTurns p) p

/-- The two loops of `wrap01(p)` end (43_operator_mod_mix.md R135, 60_exceptions.md R182). -/
def wrapEnds (c : Config) (p : ℚ) : Bool := wrapEnded c.rnd (c.wrapTurns p) p

/-- The selected engine of an operator, stepped once (43_operator_mod_mix.md R131, 44_voice_commands.md R163). -/
def Operator.stepEngine (c : Config) (v : Variant) (g : Globals) (op : Operator) : Operator :=
  match v with
  | .fm => op.egAdvance c
  | .sw => op.dxSample c g 1

/-- `lev[i]`: the pre-advance level, or the gain of the post-update level (43_operator_mod_mix.md R131). -/
def Operator.gain (c : Config) (v : Variant) (g : Globals) (op : Operator) : ℚ :=
  match v with
  | .fm => op.eg.level
  | .sw => c.dxGain (op.dxSample c g 1).dx.level

/-- `ratio_eff[i]` (43_operator_mod_mix.md R133). -/
def Params.ratioEff (c : Config) (p : Params) : ℚ := c.detuneCombine p.ratio p.detune

/-- The accumulator with this sample's increment, before it is wrapped (43_operator_mod_mix.md R134). -/
def Operator.rawPhase (c : Config) (g : Globals) (op : Operator) : ℚ :=
  op.ph + op.p.ratioEff c * op.p.f0 / (g.sr.toNat : ℚ)

/-- The phase after this sample's increment, as stored (43_operator_mod_mix.md R134). -/
def Operator.nextPhase (c : Config) (g : Globals) (op : Operator) : ℚ := c.rnd (wrap01 c (op.rawPhase c g))

/-- The sum of a row's weights on the previous outputs, in index order (43_operator_mod_mix.md R138). -/
def weightedSum (row prevs : List ℚ) : ℚ := (List.zipWith (· * ·) row prevs).foldl (· + ·) 0

/-- `fbterm` (43_operator_mod_mix.md R141). -/
def fbterm (c : Config) (g : Globals) (fb0 fb1 : ℚ) : ℚ :=
  ((asr ((c.toQ24 fb0).toInt + (c.toQ24 fb1).toInt) (c.fbShift g.fbamt) : Int) : ℚ) / 2 ^ 24

/-- `mod[i]`: the weighted previous outputs when `VARIANT = FM` (43_operator_mod_mix.md R138); the modulator's previous
output or the feedback term when `VARIANT = SW` (R139). -/
def State.modInput (s : State) (i : Nat) (op : Operator) : ℚ :=
  match s.variant with
  | .fm => weightedSum op.row s.prevOutputs
  | .sw =>
    match i with
    | 0 => if s.g.route then 0 else s.prevOutputs.getD 1 0
    | 1 => fbterm s.cfg s.g s.fb0 s.fb1
    | _ => 0

/-- The phase with the modulation, before it is wrapped (43_operator_mod_mix.md R142). -/
def State.rawTmp (s : State) (i : Nat) (op : Operator) : ℚ := op.nextPhase s.cfg s.g + s.modInput i op

/-- `tmp[i]` (43_operator_mod_mix.md R142). -/
def State.tmpPhase (s : State) (i : Nat) (op : Operator) : ℚ := wrap01 s.cfg (s.rawTmp i op)

/-- The loops of operator `i` in this tick end: that of its accumulator and that of its temporary phase (43_operator_mod_mix.md
R135). -/
def State.loopsEnd (s : State) (i : Nat) (op : Operator) : Bool :=
  wrapEnds s.cfg (op.rawPhase s.cfg s.g) && wrapEnds s.cfg (s.rawTmp i op)

/-- Every loop of this tick ends. -/
def State.tickEnds (s : State) : Bool := (s.ops.mapIdx (fun i op => s.loopsEnd i op)).all id

/-- `y[i]` (43_operator_mod_mix.md R137). -/
def State.output (s : State) (i : Nat) (op : Operator) : ℚ :=
  op.gain s.cfg s.variant s.g * s.cfg.wave op.p.wsel (s.tmpPhase i op)

/-- Operator `i` after the tick: its engine stepped, its phase advanced, its output in the other previous-output buffer
(43_operator_mod_mix.md R147). Every value is computed from the state before the tick, which R136 makes unobservable. -/
def State.tickOperator (s : State) (i : Nat) (op : Operator) : Operator :=
  Operator.setPrev s.cfg { op.stepEngine s.cfg s.variant s.g with ph := op.nextPhase s.cfg s.g } (!s.pp) (s.output i op)

/-- `y[0..NOPS-1]`. -/
def State.outputs (s : State) : List ℚ := s.ops.mapIdx (fun i op => s.output i op)

/-- The mixer (43_operator_mod_mix.md R145 when `VARIANT = FM`, R146 when `VARIANT = SW`). -/
def State.mix (s : State) : ℚ :=
  match s.variant with
  | .fm => weightedSum (s.ops.map (fun op => op.p.olev)) s.outputs
  | .sw =>
    let carrier := (s.ops.map (fun op => op.p.olev)).getD 0 0 * s.outputs.getD 0 0
    let modulator := (s.ops.map (fun op => op.p.olev)).getD 1 0 * s.outputs.getD 1 0
    if s.g.route then carrier + modulator else carrier

/-- `if VARIANT = SW: fb1 <- fb0; fb0 <- y[1]` (43_operator_mod_mix.md R141, R147): `fb0` after the tick. -/
def State.nextFb0 (s : State) : ℚ :=
  match s.variant with
  | .fm => s.fb0
  | .sw => s.cfg.rnd (s.outputs.getD 1 0)

/-- `fb1` after the tick (43_operator_mod_mix.md R141, R147). -/
def State.nextFb1 (s : State) : ℚ :=
  match s.variant with
  | .fm => s.fb1
  | .sw => s.cfg.rnd s.fb0

/-- The state a tick leaves whose loops end (43_operator_mod_mix.md R147). -/
def State.ticked (s : State) : State :=
  State.emit
    (State.togglePp { s with
      ops := s.ops.mapIdx (fun i op => s.tickOperator i op)
      fb0 := s.nextFb0
      fb1 := s.nextFb1 })
    s.mix

/-- The micro-operation `sample_tick` (43_operator_mod_mix.md R147). Where a `wrap01` loop never ends, the tick never does: the
block is stuck, without any signal, in the state before that tick (60_exceptions.md R182; DESIGN CHOICE: notes/assumptions/16.md). -/
def sampleTick (s : State) : State := if s.tickEnds then s.ticked else { s with stuck := true }

/-- `repeat n times: sample_tick` (44_voice_commands.md R169). -/
def sampleTicks : Nat → State → State
  | 0, s => s
  | n + 1, s => sampleTicks n (sampleTick s)

end Sys2Proof.Machine
end

