-- ==== Sys2Proof/Machine/Voice.lean ====
section
/-! DEFINITION. The voice-level commands: `NOP`, `INIT`, `WRG`, `WRP`, `WRM`, `NOTEON`, `NOTEOFF`, `TICK`, `RENDER`, and the
reserved encodings (44_voice_commands.md R160 to R172, 30_encoding.md R63). -/

namespace Sys2Proof.Machine

/-- The parameter registers after `INIT` (10_state.md R29), each Real stored through `rnd` (00_scope.md R8 a). -/
def Params.initial (c : Config) : Params where
  egR1 := 0
  egR2 := 0
  egR3 := 0
  egR4 := 0
  egL1 := 0
  egL2 := 0
  egL3 := 0
  egL4 := 0
  dxR0 := 0
  dxR1 := 0
  dxR2 := 0
  dxR3 := 0
  dxL0 := 0
  dxL1 := 0
  dxL2 := 0
  dxL3 := 0
  ratio := c.rnd 0
  detune := c.rnd 0
  olev := c.rnd 0
  wsel := 0
  f0 := c.rnd 1

/-- The DX7-style engine after `INIT`: the table of the zero registers, `E4`, frame 0, level 0 (10_state.md R29). -/
def Eg.initial (c : Config) : Eg where
  step := buildSteps c (Params.initial c)
  cur := .e4
  frame := 0
  level := c.rnd 0

/-- The Dexed-style engine after `INIT`: the terminal stage, level 0, key up (10_state.md R29). -/
def Dx.initial : Dx where
  ix := 4
  level := 0
  target := 0
  rising := false
  inc := 0
  staticcount := 0
  down := false

/-- An operator after `INIT`, in an instance of `nops` operators (10_state.md R29). -/
def Operator.initial (c : Config) (nops : Nat) : Operator where
  p := Params.initial c
  row := List.replicate nops (c.rnd 0)
  egDirty := false
  dxDirty := false
  eg := Eg.initial c
  dx := Dx.initial
  ph := c.rnd 0
  prev0 := c.rnd 0
  prev1 := c.rnd 0

/-- The global registers after `INIT sr` (10_state.md R29, 44_voice_commands.md R161). -/
def Globals.initial (c : Config) (sr : BitVec 32) : Globals where
  sr := sampleRateValue sr
  srmult := (c.srmultOf (sampleRateValue sr)).toI32
  route := false
  fbamt := 0
  maxenv := 0

/-- The state after `INIT sr`: every state element to the table of 10_state.md R29; "The response and sample streams are
outputs and are not cleared" (44_voice_commands.md R161). -/
def State.initialise (s : State) (sr : BitVec 32) : State :=
  { s with
    inited := true
    g := Globals.initial s.cfg sr
    ops := List.replicate s.nops (Operator.initial s.cfg s.nops)
    fb0 := s.cfg.rnd 0
    fb1 := s.cfg.rnd 0
    pp := false }

/-- The write of `WRG s, v` (44_voice_commands.md R165). -/
def State.writeGlobal (s : State) (r : GReg) (v : BitVec 32) : State :=
  match r with
  | .f0all => s.onAll (fun op => { op with p := op.p.write s.cfg .f0 v })
  | .route => { s with g := { s.g with route := routeValue v } }
  | .fbamt => { s with g := { s.g with fbamt := fbamtValue v } }
  | .maxenv => State.onAll { s with g := { s.g with maxenv := maxenvValue s.cfg v } } Operator.markDx

/-- `NOTEON` on one operator: the selected engine's key press, and phase 0 (44_voice_commands.md R163, R167). -/
def Operator.noteOn (c : Config) (v : Variant) (g : Globals) (op : Operator) : Operator :=
  match v with
  | .fm => { op with eg := op.eg.noteOn c, ph := c.rnd 0 }
  | .sw => { op.dxKey c g true with ph := c.rnd 0 }

/-- `NOTEOFF` on one operator: the selected engine's key release (44_voice_commands.md R163, R168). -/
def Operator.noteOff (c : Config) (v : Variant) (g : Globals) (op : Operator) : Operator :=
  match v with
  | .fm => { op with eg := op.eg.noteOff }
  | .sw => op.dxKey c g false

/-- The refresh of one operator's selected engine, if it is needed (44_voice_commands.md R169). -/
def Operator.refresh (c : Config) (v : Variant) (g : Globals) (op : Operator) : Operator :=
  match v with
  | .fm => if op.egDirty then op.egRefresh c else op
  | .sw => if op.dxDirty then op.dxRefresh c g else op

/-- The block top of `RENDER`: deferred parameter changes of the selected engines (44_voice_commands.md R169). -/
def State.refreshAll (s : State) : State := s.onAll (fun op => op.refresh s.cfg s.variant s.g)

/-- `NOP` (44_voice_commands.md R162), not gated. -/
def execNop (s : State) : Host.Outcome State Fault Refusal := .next s

/-- A reserved encoding, executed as `NOP` (30_encoding.md R63). -/
def execReserved (_why : Reserved) (_w : Word) (s : State) : Host.Outcome State Fault Refusal := .next s

/-- `INIT sr` (44_voice_commands.md R161), not gated. -/
def execInit (sr : BitVec 32) (s : State) : Host.Outcome State Fault Refusal := .next (s.initialise sr)

/-- `WRG s, v` (44_voice_commands.md R165): a select that names nothing is a no-op. -/
def execWrg (sel : BitVec 16) (v : BitVec 32) (s : State) : Host.Outcome State Fault Refusal :=
  .next (gated (fun s =>
    match gregOf sel with
    | none => s
    | some r => s.writeGlobal r v) s)

/-- `WRP i, s, v` (44_voice_commands.md R164): an index or a select that names nothing is a no-op. -/
def execWrp (i : BitVec 8) (sel : BitVec 16) (v : BitVec 32) (s : State) : Host.Outcome State Fault Refusal :=
  .next (gated (fun s =>
    match pregOf sel with
    | none => s
    | some r => s.onOperator i (fun op => (op.writeParam s.cfg r v, []))) s)

/-- `WRM i, j, w` (44_voice_commands.md R166): an index out of range is a no-op (30_encoding.md R56). -/
def execWrm (i : BitVec 8) (j : BitVec 16) (w : BitVec 32) (s : State) : Host.Outcome State Fault Refusal :=
  .next (gated (fun s =>
    if j.toNat < s.nops then s.onOperator i (fun op => (op.setWeight s.cfg j.toNat (unitValue w), [])) else s) s)

/-- `NOTEON` (44_voice_commands.md R167). -/
def execNoteon (s : State) : Host.Outcome State Fault Refusal :=
  .next (gated (fun s => s.onAll (fun op => op.noteOn s.cfg s.variant s.g)) s)

/-- `NOTEOFF` (44_voice_commands.md R168). -/
def execNoteoff (s : State) : Host.Outcome State Fault Refusal :=
  .next (gated (fun s => s.onAll (fun op => op.noteOff s.cfg s.variant s.g)) s)

/-- `TICK` (44_voice_commands.md R170): one sample, no refresh. -/
def execTick (s : State) : Host.Outcome State Fault Refusal := .next (gated sampleTick s)

/-- `RENDER n` (44_voice_commands.md R169): the refresh, then `n` samples, as one atomic command (20_memory.md R44). -/
def execRender (n : BitVec 32) (s : State) : Host.Outcome State Fault Refusal :=
  .next (gated (fun s => sampleTicks n.toNat s.refreshAll) s)

end Sys2Proof.Machine
end

