-- ==== Sys2Proof/Machine/Dispatch.lean ====
section
/-! DEFINITION. The meaning of each command, one arm per constructor of `Instr` (30_encoding.md R53). -/

namespace Sys2Proof.Machine

def exec (i : Instr) (s : State) : Host.Outcome State Fault Refusal :=
  match i with
  | .nop => Sys2Proof.Machine.execNop s
  | .init sr => Sys2Proof.Machine.execInit sr s
  | .wrg sel v => Sys2Proof.Machine.execWrg sel v s
  | .wrp k sel v => Sys2Proof.Machine.execWrp k sel v s
  | .wrm k j w => Sys2Proof.Machine.execWrm k j w s
  | .noteon => Sys2Proof.Machine.execNoteon s
  | .noteoff => Sys2Proof.Machine.execNoteoff s
  | .tick => Sys2Proof.Machine.execTick s
  | .render n => Sys2Proof.Machine.execRender n s
  | .egset k => Sys2Proof.Machine.execEgset k s
  | .egon k => Sys2Proof.Machine.execEgon k s
  | .egoff k => Sys2Proof.Machine.execEgoff k s
  | .egadv k => Sys2Proof.Machine.execEgadv k s
  | .dxkey k down => Sys2Proof.Machine.execDxkey k down s
  | .dxupd k => Sys2Proof.Machine.execDxupd k s
  | .dxsmp k n => Sys2Proof.Machine.execDxsmp k n s

end Sys2Proof.Machine
end

