-- ==== Sys2Proof/Machine/Step.lean ====
section
/-! DEFINITION. One step of the machine: the oldest command on the port, decoded and executed to completion
(30_encoding.md R51, 10_state.md R11). -/

namespace Sys2Proof.Machine

/-- One step. With no command on the port nothing happens (10_state.md R11); a reserved encoding acts as `NOP`
(30_encoding.md R63). While a `wrap01` loop that never ends is running, the command that runs it never ends, and no other is
taken (60_exceptions.md R182, 20_memory.md R44; DESIGN CHOICE: notes/assumptions/16.md). -/
def step (s : State) : Host.Outcome State Fault Refusal :=
  if s.stuck then .next s
  else
    match fetch s with
    | none => .next s
    | some (w, s') =>
      match decodeFor s.nops w with
      | .command i => exec i s'
      | .reserved why v => execReserved why v s'

/-- The command placed before every waiting one on the port of a block that is not stuck, so that the next step takes it. -/
def State.withFetchWord (s : State) (nbits w : Nat) : State := { s with port := tableWord nbits w :: s.port, stuck := false }

end Sys2Proof.Machine
end

