-- ==== Sys2Proof/Machine/Assembler.lean ====
section
/-! DEFINITION. What a host writes before it reaches the command port: Real operands, the pseudo-instructions of
30_encoding.md R66, and the command sequences of the source's entry points (44_voice_commands.md R171). -/

namespace Sys2Proof.Machine

/-- A Real operand as UQ16.16; "the assembler rejects any other value rather than round it" (30_encoding.md R66). -/
def asmUq16 (x : ℚ) : Option (BitVec 32) :=
  let k := x * 65536
  if k.den = 1 ∧ 0 ≤ k.num ∧ k.num < 2 ^ 32 then some (BitVec.ofInt 32 k.num) else none

/-- A Real operand as SQ15.16 (30_encoding.md R66, R55). -/
def asmSq16 (x : ℚ) : Option (BitVec 32) :=
  let k := x * 65536
  if k.den = 1 ∧ -(2 ^ 31) ≤ k.num ∧ k.num < 2 ^ 31 then some (BitVec.ofInt 32 k.num) else none

/-- The pseudo-instructions (30_encoding.md R66). -/
inductive Pseudo where
  | setdx7 (i : BitVec 8) (r1 r2 r3 r4 l1 l2 l3 l4 : BitVec 32)
  | setdxp (i : BitVec 8) (r0 r1 r2 r3 l0 l1 l2 l3 : BitVec 32)
  | setf (f : BitVec 32)
  | keydn (i : BitVec 8)
  | keyup (i : BitVec 8)
  | wrmrow (i : BitVec 8) (ws : List (BitVec 32))
deriving DecidableEq, Repr

/-- Writes of consecutive parameter registers from select `base` on. -/
def writesFrom (i : BitVec 8) (base : Nat) (vs : List (BitVec 32)) : List Instr :=
  vs.mapIdx (fun k v => .wrp i (BitVec.ofNat 16 (base + k)) v)

/-- The expansion of a pseudo-instruction, one command after the other (30_encoding.md R66). -/
def Pseudo.expand : Pseudo → List Instr
  | .setdx7 i r1 r2 r3 r4 l1 l2 l3 l4 => writesFrom i 0x00 [r1, r2, r3, r4, l1, l2, l3, l4] ++ [.egset i]
  | .setdxp i r0 r1 r2 r3 l0 l1 l2 l3 => writesFrom i 0x08 [r0, r1, r2, r3, l0, l1, l2, l3]
  | .setf f => [.wrg 0 f]
  | .keydn i => [.dxkey i true]
  | .keyup i => [.dxkey i false]
  | .wrmrow i ws => ws.mapIdx (fun j w => .wrm i (BitVec.ofNat 16 j) w)

/-- A patch as a host holds it, in raw `imm32` values: per operator the twenty registers `EG_R1 .. WSEL`, the matrix rows,
and the three global registers (44_voice_commands.md R171). -/
structure Patch where
  registers : List (List (BitVec 32))
  rows : List (List (BitVec 32))
  route : BitVec 32
  fbamt : BitVec 32
  maxenv : BitVec 32
deriving DecidableEq, Repr

/-- The source's entry points (44_voice_commands.md R171). -/
inductive Entry where
  | init (sampleRate : BitVec 32)
  | loadPatch (patch : Patch)
  | noteOn (f0 : BitVec 32)
  | noteOff
  | renderBlock (frameCount : BitVec 32)
deriving DecidableEq, Repr

/-- The commands of an entry point (44_voice_commands.md R171). -/
def Entry.commands : Entry → List Instr
  | .init sr => [.init sr]
  | .loadPatch p =>
    (p.registers.mapIdx (fun i vs => writesFrom (BitVec.ofNat 8 i) 0x00 vs)).flatten ++
      (p.rows.mapIdx (fun i ws => (Pseudo.wrmrow (BitVec.ofNat 8 i) ws).expand)).flatten ++
      [.wrg 1 p.route, .wrg 2 p.fbamt, .wrg 3 p.maxenv]
  | .noteOn f => [.wrg 0 f, .noteon]
  | .noteOff => [.noteoff]
  | .renderBlock n => [.render n]

/-- The commands as words waiting on the port, after those already there. -/
def State.issue (s : State) (is : List Instr) : State := { s with port := s.port ++ is.map encode }

end Sys2Proof.Machine
end

