-- ==== Sys2Proof/Safety.lean ====
section
/-! DEFINITION. What counts as a legal state, and the terms the statements use: the ranges the rules give every register
and engine (10_state.md R12 to R25, 41_eg_dx7.md R90, 42_eg_dexed.md R113, 70_reset_and_hazards.md R207), the registers read
by select, what entering a Dexed-style stage does, and runs of commands. -/

namespace Sys2Proof.Machine

/-- `P[i][sel]` as a number, for the selects that exist (10_state.md R12). -/
def Params.read (p : Params) (sel : Nat) : Option ℚ :=
  ([(p.egR1.val : ℚ), p.egR2.val, p.egR3.val, p.egR4.val, p.egL1.val, p.egL2.val, p.egL3.val, p.egL4.val,
    p.dxR0.val, p.dxR1.val, p.dxR2.val, p.dxR3.val, p.dxL0.val, p.dxL1.val, p.dxL2.val, p.dxL3.val,
    p.ratio, p.detune, p.olev, p.wsel.val, p.f0] : List ℚ)[sel]?

/-- The value `WRP` stores for select `sel` (44_voice_commands.md R164, 30_encoding.md R55, 10_state.md R12); a Real goes
through `rnd` (00_scope.md R8 a). -/
def storedValue (c : Config) (sel : Nat) (v : BitVec 32) : ℚ :=
  if sel ≤ 0x0F then (min v.toNat 99 : Nat)
  else if sel = 0x10 then c.rnd ((v.toNat : ℚ) / 65536)
  else if sel = 0x11 then c.rnd (max (-1) (min 1 ((v.toInt : ℚ) / 65536)))
  else if sel = 0x12 then c.rnd (min ((v.toNat : ℚ) / 65536) 1)
  else if sel = 0x13 then (min v.toNat 3 : Nat)
  else c.rnd (min (max ((v.toNat : ℚ) / 65536) 1) c.f0Max)

/-- The output of operator `j` at the previous sample tick, `prev[PP][j]` (10_state.md R25). -/
def State.prevOut (s : State) (j : Nat) : ℚ := s.prevOutputs.getD j 0

/-- `P[i][OLEV]` of operator `i` (10_state.md R15). -/
def State.olevOf (s : State) (i : Nat) : ℚ := (s.ops.map (fun op => op.p.olev)).getD i 0

/-- `while p >= 1: p = p - 1`, begun at `p`, ends at `q`, where every turn stores through `r` (43_operator_mod_mix.md R135). -/
inductive DownTo (r : ℚ → ℚ) : ℚ → ℚ → Prop
  | done {p : ℚ} : p < 1 → DownTo r p p
  | turn {p q : ℚ} : 1 ≤ p → DownTo r (r (p - 1)) q → DownTo r p q

/-- `while p < 0: p = p + 1`, begun at `p`, ends at `q`, where every turn stores through `r` (43_operator_mod_mix.md R135). -/
inductive UpTo (r : ℚ → ℚ) : ℚ → ℚ → Prop
  | done {p : ℚ} : 0 ≤ p → UpTo r p p
  | turn {p q : ℚ} : p < 0 → UpTo r (r (p + 1)) q → UpTo r p q

/-- The two loops of `wrap01(p)` end, at `q` (43_operator_mod_mix.md R135). -/
def WrapsTo (r : ℚ → ℚ) (p q : ℚ) : Prop := ∃ m, DownTo r p m ∧ UpTo r m q

/-- `g` is `seg(rate, st, en)` as stored (41_eg_dx7.md R82, 40_scaling.md R72, R73, 00_scope.md R8 a). -/
structure SegBuilt (c : Config) (g : Seg) (rate : Fin 100) (st en : ℚ) : Prop where
  startLevel : g.startLevel = c.rnd st
  endLevel : g.endLevel = c.rnd en
  asc : g.asc = decide (st < en)
  dlDf : g.dlDf = c.rnd (if st < en then 1 / c.rateConst rate else c.rateConst rate)
  dur : g.dur = c.rnd (c.frameK * (19254 / 100) * (8935 / 10000) ^ rate.val)

/-- `t` is the step table `set_dx7` builds from the registers (41_eg_dx7.md R81, R82). -/
structure TableBuilt (c : Config) (p : Params) (t : StepTable) : Prop where
  e1 : SegBuilt c t.e1 p.egR1 0 (slev c p.egL1)
  e2 : SegBuilt c t.e2 p.egR2 (slev c p.egL1) (slev c p.egL2)
  e3 : SegBuilt c t.e3 p.egR3 (slev c p.egL2) (slev c p.egL3)
  esustain : t.esustain =
    { dur := c.rnd 0, dlDf := c.rnd 1, startLevel := c.rnd (slev c p.egL3), endLevel := c.rnd (slev c p.egL3), asc := false }
  e4 : SegBuilt c t.e4 p.egR4 (slev c p.egL3) 0

/-- `d'` is `d` after `dx_advance(i, n)` (42_eg_dexed.md R103): what it writes, and that level and key are kept. The pair of
stage `n` is read at selects `0x08 + n` and `0x0C + n` (42_eg_dexed.md R101), the target is that of R102, the rate class
`(R * 41) >> 6` that of R104. -/
structure StageEntered (c : Config) (g : Globals) (p : Params) (d d' : Dx) (n : Nat) : Prop where
  ix : d'.ix.val = n
  level : d'.level = d.level
  down : d'.down = d.down
  pair : n < 4 → ∃ (rate level : Fin 100) (q : Fin 64),
    p.read (0x08 + n) = some (rate.val : ℚ) ∧ p.read (0x0C + n) = some (level.val : ℚ) ∧
    q.val = rate.val * 41 / 2 ^ 6 ∧
    d'.target = toI32 c .target
      (max ((((scaleOutputLevel c level).val / 2 * 64 : Nat) : Int) + g.maxenv.toNat - 4256) 16 * 65536) ∧
    d'.rising = decide (d.level.toInt < d'.target.toInt) ∧
    d'.inc.toInt = (c.dxInc q g.srmult).toNat ∧
    d'.staticcount = (if d'.target = d.level then dxHold c g rate else 0)
  last : n = 4 →
    d'.target = d.target ∧ d'.rising = d.rising ∧ d'.inc = d.inc ∧ d'.staticcount = d.staticcount

/-- An instance as 00_scope.md R6 allows it, with a square matrix (10_state.md R17). -/
structure State.Shape (s : State) : Prop where
  nops_pos : 1 ≤ s.nops
  nops_le : s.nops ≤ 8
  sw_two : s.variant = .sw → s.nops = 2
  rows : ∀ op ∈ s.ops, op.row.length = s.nops

/-- The ranges of the Real parameter registers (10_state.md R12); the integer registers have theirs by type. -/
structure Params.Legal (c : Config) (p : Params) : Prop where
  ratio : 0 ≤ p.ratio ∧ p.ratio ≤ 65535 + 65535 / 65536
  detune : -1 ≤ p.detune ∧ p.detune ≤ 1
  olev : 0 ≤ p.olev ∧ p.olev ≤ 1
  f0 : min 1 c.f0Max ≤ p.f0 ∧ p.f0 ≤ max 1 c.f0Max ∧ p.f0 ≤ 65535 + 65535 / 65536

/-- The ranges of a segment descriptor (10_state.md R19); a segment that does not ascend does not grow the level
(41_eg_dx7.md R90). -/
structure Seg.Legal (g : Seg) : Prop where
  dur : 0 ≤ g.dur
  dlDf : 0 < g.dlDf
  startLevel : 0 ≤ g.startLevel ∧ g.startLevel ≤ 1
  endLevel : 0 ≤ g.endLevel ∧ g.endLevel ≤ 1
  asc : g.asc = decide (g.startLevel < g.endLevel)
  flat : g.asc = false → g.dlDf ≤ 1

/-- The level chain of 41_eg_dx7.md R81 and the held sustain of R82. -/
structure StepTable.Legal (t : StepTable) : Prop where
  segs : ∀ k, (t.get k).Legal
  attack : t.e1.startLevel = 0
  decay : t.e2.startLevel = t.e1.endLevel
  decay2 : t.e3.startLevel = t.e2.endLevel
  sustain : t.esustain.startLevel = t.e3.endLevel ∧ t.esustain.endLevel = t.e3.endLevel
  hold : t.esustain.dlDf = 1 ∧ t.esustain.dur = 0
  release : t.e4.startLevel = t.e3.endLevel
  silence : t.e4.endLevel = 0

/-- The level of the DX7-style engine stays in [0, 1] (41_eg_dx7.md R90). -/
structure Eg.Legal (e : Eg) : Prop where
  step : e.step.Legal
  level : 0 ≤ e.level ∧ e.level ≤ 1

/-- A hold runs in stages 0..3 only (42_eg_dexed.md R107), and neither the increment nor the hold count is negative
(10_state.md R22, 70_reset_and_hazards.md R207). -/
structure Dx.Legal (d : Dx) : Prop where
  hold : 0 < d.staticcount.toInt → d.ix.val ≤ 3
  inc : 0 ≤ d.inc.toInt
  staticcount : 0 ≤ d.staticcount.toInt

/-- An operator whose registers, engines, phase and outputs lie in their ranges (10_state.md R12 to R25); the outputs of the
`FM` variant lie in [-1, 1] (43_operator_mod_mix.md R137, 41_eg_dx7.md R90). -/
structure Operator.Legal (c : Config) (v : Variant) (op : Operator) : Prop where
  params : op.p.Legal c
  row : ∀ w ∈ op.row, 0 ≤ w ∧ w ≤ 1
  eg : op.eg.Legal
  dx : op.dx.Legal
  ph : 0 ≤ op.ph ∧ op.ph < 1
  prev : v = .fm → |op.prev0| ≤ 1 ∧ |op.prev1| ≤ 1

/-- The ranges of the global registers (10_state.md R16). -/
structure Globals.Legal (c : Config) (g : Globals) : Prop where
  sr : 1 ≤ g.sr.toNat
  srmult : 0 ≤ g.srmult.toInt
  maxenv : g.maxenv.toNat ≤ c.maxEnvMax

/-- A legal state: what 70_reset_and_hazards.md R207 says never drifts, but for the bounds of the Dexed-style level, which are
`State.DxBounded`. No loop that never ends is running (60_exceptions.md R182). -/
structure State.Legal (s : State) : Prop where
  running : s.stuck = false
  shape : s.Shape
  globals : s.g.Legal s.cfg
  operators : ∀ op ∈ s.ops, op.Legal s.cfg s.variant

/-- The bounds of 42_eg_dexed.md R113 on one engine, for targets up to `tmax`. -/
structure Dx.Bounded (tmax : Int) (d : Dx) : Prop where
  level : 0 ≤ d.level.toInt ∧ d.level.toInt ≤ tmax
  target : 0 ≤ d.target.toInt ∧ d.target.toInt ≤ tmax
  floor : d.ix.val < 4 → 1048576 ≤ d.target.toInt
  inc : 0 ≤ d.inc.toInt ∧ d.inc.toInt ≤ 117440512
  staticcount : 0 ≤ d.staticcount.toInt ∧ d.staticcount.toInt ≤ 225792000

/-- The bounds of 42_eg_dexed.md R113 on every engine, with `TMAX = 3840 << 16` of `MAXENV_MAX = 4064`. -/
structure State.DxBounded (s : State) : Prop where
  maxenv : s.g.maxenv.toNat ≤ 4064
  srmult : 0 ≤ s.g.srmult.toInt
  engines : ∀ op ∈ s.ops, op.dx.Bounded 251658240

/-- The state without what a host sees of it or has sent to it: the two output streams and the waiting commands. -/
def State.inner (s : State) : State := { s with responses := [], samples := [], port := [] }

/-- Commands executed one after the other (30_encoding.md R51); a stuck block executes no further one (60_exceptions.md R182). -/
def execAll : List Instr → State → Host.Outcome State Fault Refusal
  | [], s => .next s
  | i :: is, s =>
    if s.stuck then .next s
    else
      match exec i s with
      | .next t => execAll is t
      | .fault r => .fault r
      | .refused r => .refused r

/-- A number of steps, one after the other. -/
def runSteps : Nat → State → Host.Outcome State Fault Refusal
  | 0, s => .next s
  | n + 1, s =>
    match step s with
    | .next t => runSteps n t
    | .fault r => .fault r
    | .refused r => .refused r

/-- A safe run of steps: every step answers a next state, and every state on the way is legal. -/
def SafeFor : Nat → State → Prop
  | 0, s => s.Legal
  | n + 1, s => s.Legal ∧ ∃ t, step s = .next t ∧ SafeFor n t

end Sys2Proof.Machine
end

