-- ==== Sys2Proof/Certificates/Slice0/Obligations.lean ====
section
/-! DEFINITION. The statements for the provers. Each docstring names the rule of spec/ it formalises, or says what it rests
on. -/

open Sys2Proof Sys2Proof.Machine

/-! ### Encoding -/

/-- Every well-formed command is what its word decodes to, with every operand at every value (30_encoding.md R50, R53). -/
def Obligations.DecodeOfEncodeIsTheCommand : Prop :=
  ∀ i : Instr, i.wellFormed = true → decode (encode i) = .command i

/-- 30_encoding.md R53, R54: the opcode alone selects the command, unused fields are ignored, and the canonical word has
them 0. -/
def Obligations.OpcodeSelectsAndUnusedFieldsAreIgnored : Prop :=
  (∀ (opi : BitVec 8) (sel : BitVec 16) (imm : BitVec 32),
    decode (packWord 0x00 opi sel imm) = .command .nop ∧
    decode (packWord 0x01 opi sel imm) = .command (.init imm) ∧
    (sel.toNat ≤ 0x0003 → decode (packWord 0x02 opi sel imm) = .command (.wrg sel imm)) ∧
    (sel.toNat ≤ 0x0014 → decode (packWord 0x03 opi sel imm) = .command (.wrp opi sel imm)) ∧
    decode (packWord 0x04 opi sel imm) = .command (.wrm opi sel imm) ∧
    decode (packWord 0x08 opi sel imm) = .command .noteon ∧
    decode (packWord 0x09 opi sel imm) = .command .noteoff ∧
    decode (packWord 0x0A opi sel imm) = .command .tick ∧
    decode (packWord 0x0B opi sel imm) = .command (.render imm) ∧
    decode (packWord 0x10 opi sel imm) = .command (.egset opi) ∧
    decode (packWord 0x11 opi sel imm) = .command (.egon opi) ∧
    decode (packWord 0x12 opi sel imm) = .command (.egoff opi) ∧
    decode (packWord 0x13 opi sel imm) = .command (.egadv opi) ∧
    decode (packWord 0x18 opi sel imm) = .command (.dxkey opi (imm.getLsbD 0)) ∧
    decode (packWord 0x19 opi sel imm) = .command (.dxupd opi) ∧
    decode (packWord 0x1A opi sel imm) = .command (.dxsmp opi imm)) ∧
  (∀ (k : BitVec 8) (sel : BitVec 16) (v : BitVec 32) (down : Bool),
    encode .nop = packWord 0x00 0 0 0 ∧ encode (.init v) = packWord 0x01 0 0 v ∧
    encode (.wrg sel v) = packWord 0x02 0 sel v ∧ encode (.wrp k sel v) = packWord 0x03 k sel v ∧
    encode (.wrm k sel v) = packWord 0x04 k sel v ∧ encode .noteon = packWord 0x08 0 0 0 ∧
    encode .noteoff = packWord 0x09 0 0 0 ∧ encode .tick = packWord 0x0A 0 0 0 ∧
    encode (.render v) = packWord 0x0B 0 0 v ∧ encode (.egset k) = packWord 0x10 k 0 0 ∧
    encode (.egon k) = packWord 0x11 k 0 0 ∧ encode (.egoff k) = packWord 0x12 k 0 0 ∧
    encode (.egadv k) = packWord 0x13 k 0 0 ∧ encode (.dxkey k down) = packWord 0x18 k 0 (if down then 1 else 0) ∧
    encode (.dxupd k) = packWord 0x19 k 0 0 ∧ encode (.dxsmp k v) = packWord 0x1A k 0 v)

/-- 30_encoding.md R63: every reserved encoding is decoded as one and, in a block that is not stuck, executed as `NOP`. -/
def Obligations.ReservedWordsActAsNop : Prop :=
  ∀ (s : State) (w : Word) (rest : List Word), s.stuck = false → s.port = w :: rest →
    (((0x05 ≤ (opcOf w).toNat ∧ (opcOf w).toNat ≤ 0x07) ∨ (0x0C ≤ (opcOf w).toNat ∧ (opcOf w).toNat ≤ 0x0F) ∨
        (0x14 ≤ (opcOf w).toNat ∧ (opcOf w).toNat ≤ 0x17) ∨ 0x1B ≤ (opcOf w).toNat) →
      decodeFor s.nops w = .reserved .opcode w ∧ step s = .next { s with port := rest }) ∧
    (opcOf w = 0x03 → 0x0014 < (selOf w).toNat →
      decodeFor s.nops w = .reserved .paramSelect w ∧ step s = .next { s with port := rest }) ∧
    (opcOf w = 0x02 → 0x0003 < (selOf w).toNat →
      decodeFor s.nops w = .reserved .globalSelect w ∧ step s = .next { s with port := rest }) ∧
    (∀ i, decode w = .command i → i.indexOk s.nops = false →
      decodeFor s.nops w = .reserved .index w ∧ step s = .next { s with port := rest })

/-- Words written out from the encoding of 30_encoding.md R50, R53 decode to the commands they stand for. -/
def Obligations.SpelledOutWordsDecode : Prop :=
  decode 0x0000000000000000 = .command .nop ∧
  decode 0x010000000000BB80 = .command (.init 48000) ∧
  decode 0x0200000300000FE0 = .command (.wrg 3 4064) ∧
  decode 0x03010011FFFF8000 = .command (.wrp 1 0x11 0xFFFF8000) ∧
  decode 0x0400000100004000 = .command (.wrm 0 1 0x4000) ∧
  decode 0x0B00000000000040 = .command (.render 64) ∧
  decode 0x1001000000000000 = .command (.egset 1) ∧
  decode 0x1800000000000001 = .command (.dxkey 0 true) ∧
  decode 0x1A01000000000005 = .command (.dxsmp 1 5)

/-- 20_memory.md R43: a word kept in byte-addressed memory is little-endian, and the eight bytes give it back. -/
def Obligations.HostBytesAreLittleEndian : Prop :=
  ∀ w : Word, wordOfBytes (bytesOfWord w) = some w ∧
    ∀ k : Nat, k < 8 → (bytesOfWord w)[k]? = some (w.extractLsb' (8 * k) 8)

/-! ### Steps -/

/-- 30_encoding.md R51: a step takes the oldest waiting command and executes it; with none waiting nothing happens. A stuck block
takes none (60_exceptions.md R182; the model's reading: notes/assumptions/16.md). -/
def Obligations.StepRunsTheOldestWaitingCommand : Prop :=
  (∀ (s : State) (w : Word) (rest : List Word) (i : Instr), s.stuck = false → s.port = w :: rest → decode w = .command i →
    step s = exec i { s with port := rest }) ∧
  (∀ s : State, s.port = [] → step s = .next s) ∧
  (∀ s : State, s.stuck = true → step s = .next s)

/-- 30_encoding.md R51, 20_memory.md R45: commands issued to an empty port are executed one at a time in the order they
arrive, one step each, as long as the block does not get stuck. That they wait in the state is the model's choice
(notes/assumptions/5.md). -/
def Obligations.IssuedCommandsRunInOrder : Prop :=
  ∀ (is : List Instr) (s t : State), s.port = [] → (∀ i ∈ is, i.wellFormed = true) → execAll is s = .next t →
    t.stuck = false → runSteps is.length (s.issue is) = .next t

/-- 60_exceptions.md R180: every command and every reserved encoding answers a next state and no error result; and in exact
arithmetic none leaves a loop running. Under another `rnd` see `ALoopThatNeverEndsSticksTheBlock`. -/
def Obligations.EveryCommandCompletes : Prop :=
  (∀ (i : Instr) (s : State), ∃ t, exec i s = .next t ∧ (s.cfg.Exact → t.stuck = s.stuck)) ∧
  (∀ (why : Reserved) (w : Word) (s : State), ∃ t, execReserved why w s = .next t ∧ t.stuck = s.stuck) ∧
  (∀ s : State, ∃ t, step s = .next t ∧ (s.cfg.Exact → t.stuck = s.stuck))

/-- 44_voice_commands.md R160: before `INIT` every command but `INIT` and `NOP` changes nothing and appends nothing (`NOP`
never does), `INIT` sets `INITED`, and once `INITED` is 1 it stays so. -/
def Obligations.CommandsBeforeInitAreIgnored : Prop :=
  (∀ (i : Instr) (s : State), s.inited = false → (∀ sr, i ≠ .init sr) → exec i s = .next s) ∧
  (∀ (sr : BitVec 32) (s : State), ∃ t, exec (.init sr) s = .next t ∧ t.inited = true) ∧
  (∀ (i : Instr) (s t : State), s.inited = true → exec i s = .next t → t.inited = true)

/-- 30_encoding.md R56: a command with an operator index out of range is a no-op that appends nothing, and so is `WRM` with a
modulator index out of range. -/
def Obligations.IndexOutOfRangeIsNoOp : Prop :=
  ∀ (s : State) (k : BitVec 8),
    (s.nops ≤ k.toNat →
      (∀ sel v, exec (.wrp k sel v) s = .next s) ∧ (∀ j w, exec (.wrm k j w) s = .next s) ∧
      exec (.egset k) s = .next s ∧ exec (.egon k) s = .next s ∧ exec (.egoff k) s = .next s ∧
      exec (.egadv k) s = .next s ∧ (∀ down, exec (.dxkey k down) s = .next s) ∧
      exec (.dxupd k) s = .next s ∧ (∀ n, exec (.dxsmp k n) s = .next s)) ∧
    (∀ (j : BitVec 16) (w : BitVec 32), s.nops ≤ j.toNat → exec (.wrm k j w) s = .next s)

/-- 00_scope.md R6: no step changes which instance this is. That the parameters stand in the state is the model's choice
(notes/assumptions/2.md, 3.md). -/
def Obligations.NoStepChangesTheInstance : Prop :=
  ∀ s t : State, step s = .next t → t.variant = s.variant ∧ t.numeric = s.numeric ∧ t.nops = s.nops

/-- 30_encoding.md R52: which commands append what to the two streams, and that nothing else does. The samples are counted where
the loops of every tick end, as in exact arithmetic they do. -/
def Obligations.WhatEachCommandAppends : Prop :=
  ∀ (i : Instr) (s : State), ∃ (t : State) (rs : List Response) (ps : List Sample),
    exec i s = .next t ∧ t.responses = s.responses ++ rs ∧ t.samples = s.samples ++ ps ∧
    (∀ p ∈ ps, p.out = s.cfg.toOut p.mix) ∧
    (∀ k, i = .egadv k → s.inited = true → k.toNat < s.nops → ∃ x, rs = [.real x]) ∧
    (∀ k n, i = .dxsmp k n → s.inited = true → k.toNat < s.nops → ∃ x, rs = [.int x]) ∧
    (i = .tick → s.inited = true → (s.cfg.Exact ∨ t.stuck = false) → ps.length = 1) ∧
    (∀ n, i = .render n → s.inited = true → (s.cfg.Exact ∨ t.stuck = false) → ps.length = n.toNat) ∧
    ((∀ k, i ≠ .egadv k) → (∀ k n, i ≠ .dxsmp k n) → rs = []) ∧
    (i ≠ .tick → (∀ n, i ≠ .render n) → ps = []) ∧
    (s.inited = false ∨ i.indexOk s.nops = false → rs = [] ∧ ps = [])

/-- 10_state.md R16: `SR` and `SRMULT` are written by `INIT` alone. -/
def Obligations.OnlyInitWritesTheSampleRate : Prop :=
  ∀ (i : Instr) (s t : State), exec i s = .next t → (∀ sr, i ≠ .init sr) →
    t.g.sr = s.g.sr ∧ t.g.srmult = s.g.srmult

/-! ### Reset -/

/-- 10_state.md R28: at power-on `INITED` is 0, nothing has been appended, and nothing happens until `INIT`. -/
def Obligations.PowerOnWaitsForInit : Prop :=
  State.reset.inited = false ∧ State.reset.stuck = false ∧ State.reset.responses = [] ∧ State.reset.samples = [] ∧
  ∀ i : Instr, (∀ sr, i ≠ .init sr) → exec i State.reset = .next State.reset

/-- 44_voice_commands.md R161, 10_state.md R29: `INIT sr` from any state, every Real through `rnd` (00_scope.md R8 a), and the
multiplier under the candidate; a block that is not stuck is not stuck after it. -/
def Obligations.InitSetsEveryElement : Prop :=
  ∀ (s : State) (sr : BitVec 32), ∃ t, exec (.init sr) s = .next t ∧
    t.inited = true ∧
    t.g.sr.toNat = max sr.toNat 1 ∧
    t.g.srmult.toInt = (s.cfg.srmultOf t.g.sr).toNat ∧
    (s.numeric = .cfgT → t.g.srmult.toInt = (min (44100 * 2 ^ 24 / max sr.toNat 1) (2 ^ 31 - 1) : Nat)) ∧
    t.g.route = false ∧ t.g.fbamt.val = 0 ∧ t.g.maxenv.toNat = 0 ∧
    t.fb0 = s.cfg.rnd 0 ∧ t.fb1 = s.cfg.rnd 0 ∧ t.pp = false ∧
    t.nops = s.nops ∧
    (∀ op ∈ t.ops,
      (∀ r, r < 0x10 ∨ r = 0x13 → op.p.read r = some 0) ∧
      (∀ r, 0x10 ≤ r → r ≤ 0x12 → op.p.read r = some (s.cfg.rnd 0)) ∧ op.p.read 0x14 = some (s.cfg.rnd 1) ∧
      op.row = List.replicate s.nops (s.cfg.rnd 0) ∧ op.egDirty = false ∧ op.dxDirty = false ∧
      TableBuilt s.cfg op.p op.eg.step ∧ op.eg.cur = .e4 ∧ op.eg.frame = 0 ∧ op.eg.level = s.cfg.rnd 0 ∧
      op.dx.ix.val = 4 ∧ op.dx.level = 0 ∧ op.dx.target = 0 ∧ op.dx.inc = 0 ∧ op.dx.staticcount = 0 ∧
      op.dx.rising = false ∧ op.dx.down = false ∧
      op.ph = s.cfg.rnd 0 ∧ op.prev0 = s.cfg.rnd 0 ∧ op.prev1 = s.cfg.rnd 0) ∧
    t.variant = s.variant ∧ t.numeric = s.numeric ∧ t.responses = s.responses ∧ t.samples = s.samples ∧
    t.port = s.port ∧ (s.stuck = false → t.stuck = false)

/-- 10_state.md R29: `INIT` gives the same state whatever came before, so no value held before it can be seen after it; in
particular none that the model names at power-on (notes/assumptions/1.md). -/
def Obligations.InitForgetsWhatCameBefore : Prop :=
  ∀ (s₁ s₂ : State) (sr : BitVec 32),
    s₁.variant = s₂.variant → s₁.numeric = s₂.numeric → s₁.nops = s₂.nops →
    s₁.responses = s₂.responses → s₁.samples = s₂.samples → s₁.port = s₂.port → s₁.stuck = s₂.stuck →
    exec (.init sr) s₁ = exec (.init sr) s₂

/-- 44_voice_commands.md R172: two runs of the same commands that both begin with `INIT sr` append the same values to both
streams and end in the same state. It rests on notes/assumptions/10.md too (DESIGN CHOICE): two overflows of one exact value at
one place give one value. -/
def Obligations.SameCommandsAfterInitGiveTheSameOutputs : Prop :=
  ∀ (sr : BitVec 32) (is : List Instr) (s₁ s₂ : State),
    s₁.variant = s₂.variant → s₁.numeric = s₂.numeric → s₁.nops = s₂.nops → s₁.stuck = false → s₂.stuck = false →
    ∃ (t₁ t₂ : State) (rs : List Response) (ps : List Sample),
      execAll (.init sr :: is) s₁ = .next t₁ ∧ execAll (.init sr :: is) s₂ = .next t₂ ∧
      t₁.inner = t₂.inner ∧
      t₁.responses = s₁.responses ++ rs ∧ t₂.responses = s₂.responses ++ rs ∧
      t₁.samples = s₁.samples ++ ps ∧ t₂.samples = s₂.samples ++ ps

/-! ### Register writes -/

/-- 44_voice_commands.md R162: `NOP` and every reserved encoding change nothing, whether or not `INITED`. -/
def Obligations.NopChangesNothing : Prop :=
  decode 0x0000000000000000 = .command .nop ∧
  ∀ s : State, exec .nop s = .next s ∧ ∀ why w, execReserved why w s = .next s

/-- 44_voice_commands.md R164: `WRP` stores the clamped value in the register its select names, sets the flag that the
register's engine asks for, and changes nothing else; an index or a select out of range is a no-op. -/
def Obligations.WrpStoresTheClampedValue : Prop :=
  ∀ (s : State) (k : BitVec 8) (sel : BitVec 16) (v : BitVec 32), s.inited = true →
    (∀ op : Operator, s.ops[k.toNat]? = some op → sel.toNat ≤ 0x0014 → ∃ op',
      exec (.wrp k sel v) s = .next { s with ops := s.ops.set k.toNat op' } ∧
      (∀ r, op'.p.read r = if r = sel.toNat then some (storedValue s.cfg r v) else op.p.read r) ∧
      op'.egDirty = (op.egDirty || decide (sel.toNat ≤ 0x07)) ∧
      op'.dxDirty = (op.dxDirty || decide (0x08 ≤ sel.toNat ∧ sel.toNat ≤ 0x0F)) ∧
      op' = { op with p := op'.p, egDirty := op'.egDirty, dxDirty := op'.dxDirty }) ∧
    (s.nops ≤ k.toNat ∨ 0x0014 < sel.toNat → exec (.wrp k sel v) s = .next s)

/-- 44_voice_commands.md R165: what `WRG` writes for each select; a select above 3 is a no-op. -/
def Obligations.WrgWritesTheSelectedGlobal : Prop :=
  ∀ (s : State) (v : BitVec 32), s.inited = true →
    exec (.wrg 0x0000 v) s = .next { s with ops := s.ops.map (fun op =>
      { op with p := { op.p with f0 := s.cfg.rnd (min (max ((v.toNat : ℚ) / 65536) 1) s.cfg.f0Max) } }) } ∧
    exec (.wrg 0x0001 v) s = .next { s with g := { s.g with route := v.getLsbD 0 } } ∧
    (∃ x : Fin 8, exec (.wrg 0x0002 v) s = .next { s with g := { s.g with fbamt := x } } ∧ x.val = min v.toNat 7) ∧
    (∃ x : BitVec 32, exec (.wrg 0x0003 v) s = .next { s with
        g := { s.g with maxenv := x }, ops := s.ops.map (fun op => { op with dxDirty := true }) } ∧
      x.toNat = min v.toNat s.cfg.maxEnvMax) ∧
    ∀ sel : BitVec 16, 0x0003 < sel.toNat → exec (.wrg sel v) s = .next s

/-- 44_voice_commands.md R166: `WRM` stores one clamped weight and changes no other weight and nothing else; an index out
of range is a no-op. -/
def Obligations.WrmStoresOneWeight : Prop :=
  ∀ (s : State) (k : BitVec 8) (j : BitVec 16) (w : BitVec 32), s.inited = true → s.Shape →
    (s.nops ≤ k.toNat ∨ s.nops ≤ j.toNat → exec (.wrm k j w) s = .next s) ∧
    (k.toNat < s.nops → j.toNat < s.nops → ∃ t, exec (.wrm k j w) s = .next t ∧
      (∀ a b, t.weight a b = if a = k.toNat ∧ b = j.toNat then s.cfg.rnd (min ((w.toNat : ℚ) / 65536) 1) else s.weight a b) ∧
      t = { s with ops := t.ops } ∧ t.nops = s.nops ∧
      ∀ (a : Nat) (op op' : Operator), s.ops[a]? = some op → t.ops[a]? = some op' → op' = { op with row := op'.row })

/-! ### The scaling unit -/

/-- 40_scaling.md R75: a higher rate never slows a segment: descending multipliers do not grow, ascending ones do not shrink,
and durations strictly fall. -/
def Obligations.HigherRatesReachTheTargetSooner : Prop :=
  ∀ (n : Numeric) (r r' : Fin 100) (st en : ℚ), r < r' →
    (¬ st < en → scaleRate (Config.of n) r' st en ≤ scaleRate (Config.of n) r st en) ∧
    (st < en → scaleRate (Config.of n) r st en ≤ scaleRate (Config.of n) r' st en) ∧
    rateToFrames (Config.of n) r' st en < rateToFrames (Config.of n) r st en

/-- 40_scaling.md R70, R71: the scaled level is the table below 20 and `28 + raw` from 20 on, and its normalisation lies in
[0, 1] and does not fall as the scaled level grows. -/
def Obligations.OutputLevelIsTableThenLine : Prop :=
  ∀ (n : Numeric) (raw : Fin 100),
    (∀ h : raw.val < 20, scaleOutputLevel (Config.of n) raw = (Config.of n).levelLut ⟨raw.val, h⟩) ∧
    (20 ≤ raw.val → (scaleOutputLevel (Config.of n) raw).val = 28 + raw.val) ∧
    slev (Config.of n) raw = (Config.of n).levelNorm (scaleOutputLevel (Config.of n) raw) ∧
    0 ≤ slev (Config.of n) raw ∧ slev (Config.of n) raw ≤ 1 ∧
    ∀ raw' : Fin 100, scaleOutputLevel (Config.of n) raw ≤ scaleOutputLevel (Config.of n) raw' →
      slev (Config.of n) raw ≤ slev (Config.of n) raw'

/-! ### The DX7-style engine -/

/-- 41_eg_dx7.md R81, R82, R83: `EGSET` builds the step table from the registers and clears `EGDIRTY`; the running state and
everything else is kept. -/
def Obligations.EgsetBuildsTheStepTable : Prop :=
  ∀ (s : State) (k : BitVec 8), s.inited = true →
    (∀ op : Operator, s.ops[k.toNat]? = some op → ∃ t : StepTable,
      exec (.egset k) s = .next { s with
        ops := s.ops.set k.toNat { op with eg := { op.eg with step := t }, egDirty := false } } ∧
      TableBuilt s.cfg op.p t) ∧
    (s.nops ≤ k.toNat → exec (.egset k) s = .next s)

/-- 41_eg_dx7.md R84, R85: `EGON` forces `E1` at frame 0 and level 0; `EGOFF` forces `E4` at frame 0 and keeps the level. -/
def Obligations.EgonAttacksAndEgoffReleases : Prop :=
  ∀ (s : State) (k : BitVec 8), s.inited = true →
    (∀ op : Operator, s.ops[k.toNat]? = some op →
      exec (.egon k) s = .next { s with
        ops := s.ops.set k.toNat { op with eg := { op.eg with cur := .e1, frame := 0, level := s.cfg.rnd 0 } } } ∧
      exec (.egoff k) s = .next { s with
        ops := s.ops.set k.toNat { op with eg := { op.eg with cur := .e4, frame := 0 } } }) ∧
    (s.nops ≤ k.toNat → exec (.egon k) s = .next s ∧ exec (.egoff k) s = .next s)

/-- 41_eg_dx7.md R86, R87: one `EGADV`: the response is the level before it; an advance condition outside `E4` moves on to the next
step at the finished step's end level, otherwise the level is multiplied; an index out of range is a no-op. -/
def Obligations.EgadvRespondsThenAdvances : Prop :=
  ∀ (s : State) (k : BitVec 8), s.inited = true →
    (s.nops ≤ k.toNat → exec (.egadv k) s = .next s) ∧
    ∀ op : Operator, s.ops[k.toNat]? = some op →
      let g := op.eg.step.get op.eg.cur
      let f := min (op.eg.frame.toNat + 1) (2 ^ 32 - 1)
      let l := max op.eg.level (1 / 10000) * g.dlDf
      let fired := g.dur ≤ (f : ℚ) ∨ |l - g.endLevel| < 1 / 1000 ∨
        (if g.asc = true then g.endLevel < l else l < g.endLevel)
      ∃ e : Eg,
        exec (.egadv k) s = .next { s with
          ops := s.ops.set k.toNat { op with eg := e }, responses := s.responses ++ [.real op.eg.level] } ∧
        e.step = op.eg.step ∧
        (op.eg.cur ≠ .e4 → fired → e.cur = op.eg.cur.next ∧ e.frame = 0 ∧ e.level = s.cfg.rnd g.endLevel) ∧
        (op.eg.cur = .e4 ∨ ¬ fired → e.cur = op.eg.cur ∧ e.frame.toNat = f ∧ e.level = s.cfg.rnd l)

/-- 41_eg_dx7.md R80: the successor of every step, and that `E4` is reached from no other step. -/
def Obligations.StepGraphHasTwoAbsorbingSteps : Prop :=
  EgStep.next .e1 = .e2 ∧ EgStep.next .e2 = .e3 ∧ EgStep.next .e3 = .esustain ∧
  EgStep.next .esustain = .esustain ∧ EgStep.next .e4 = .e4 ∧ ∀ k, EgStep.next k = .e4 → k = .e4

/-- 41_eg_dx7.md R88: the release step is left by `INIT`-free commands only through `EGON` of that operator or, when
`VARIANT = FM`, `NOTEON`. -/
def Obligations.ReleaseIsLeftOnlyByANoteOn : Prop :=
  ∀ (i : Instr) (s t : State) (a : Nat) (op op' : Operator),
    exec i s = .next t → s.ops[a]? = some op → t.ops[a]? = some op' → op.eg.cur = .e4 → op'.eg.cur ≠ .e4 →
    (∃ k : BitVec 8, i = .egon k ∧ k.toNat = a) ∨ (i = .noteon ∧ s.variant = .fm)

/-- 41_eg_dx7.md R89 (derived there), in exact arithmetic: the release falls geometrically while above 1/10000, and from 1/10000 or below it is at
`T4` after every further `EGADV`. -/
def Obligations.ReleaseEndsAtItsTerminalLevel : Prop :=
  ∀ (s : State) (k : BitVec 8) (op : Operator), s.stuck = false → s.inited = true → s.ops[k.toNat]? = some op →
    s.cfg.Exact → op.eg.cur = .e4 → 0 < op.eg.step.e4.dlDf → op.eg.step.e4.dlDf < 1 →
    (1 / 10000 < op.eg.level → ∃ t op', exec (.egadv k) s = .next t ∧ t.ops[k.toNat]? = some op' ∧
      op'.eg.cur = .e4 ∧ op'.eg.level = op.eg.level * op.eg.step.e4.dlDf ∧ op'.eg.level < op.eg.level) ∧
    (op.eg.level ≤ 1 / 10000 → ∀ n : Nat, ∃ t op',
      execAll (List.replicate (n + 1) (.egadv k)) s = .next t ∧ t.ops[k.toNat]? = some op' ∧
      op'.eg.cur = .e4 ∧ op'.eg.level = op.eg.step.e4.dlDf / 10000)

/-- 41_eg_dx7.md R91 (derived there), in exact arithmetic: in the held sustain step every `EGADV` leaves the sustain level and, after the first,
responds it. -/
def Obligations.SustainHoldsItsLevel : Prop :=
  ∀ (s : State) (k : BitVec 8) (op : Operator) (n : Nat), s.stuck = false → s.inited = true → s.ops[k.toNat]? = some op →
    s.cfg.Exact → op.eg.cur = .esustain → op.eg.step.Legal →
    ∃ t op', execAll (List.replicate (n + 1) (.egadv k)) s = .next t ∧ t.ops[k.toNat]? = some op' ∧
      op'.eg.cur = .esustain ∧ op'.eg.level = op.eg.step.e3.endLevel ∧
      t.responses = s.responses ++ .real op.eg.level :: List.replicate n (.real op.eg.step.e3.endLevel)

/-- 41_eg_dx7.md R92 (derived there): the first `EGADV` after an `EGON` responds the stored 0, which in exact arithmetic is 0,
whatever came before. -/
def Obligations.FirstLevelAfterEgonIsZero : Prop :=
  ∀ (s : State) (k : BitVec 8), s.stuck = false → s.inited = true → k.toNat < s.nops →
    ∃ t, execAll [.egon k, .egadv k] s = .next t ∧ t.responses = s.responses ++ [.real (s.cfg.rnd 0)] ∧
      (s.cfg.Exact → t.responses = s.responses ++ [.real 0])

/-! ### The Dexed-style engine -/

/-- 42_eg_dexed.md R101, R102, where the value fits Int32 (93_implementation_defined.md U7): the target of stage `s`, from the
level register at select `0x0C + s`. -/
def Obligations.StageTargetFollowsTheLevelRegister : Prop :=
  ∀ (c : Config) (g : Globals) (p : Params) (s : Fin 4),
    ∃ level : Fin 100, p.read (0x0C + s.val) = some (level.val : ℚ) ∧
      let a := max (((((scaleOutputLevel c level).val / 2) * 64 : Nat) : Int) + g.maxenv.toNat - 4256) 16
      a * 65536 ≤ 2147483647 → (dxTarget c g p s).toInt = a * 65536

/-- 42_eg_dexed.md R105, where the value fits Int32: the hold count of a rate. -/
def Obligations.HoldCountIsScaledFromTheTable : Prop :=
  ∀ (c : Config) (g : Globals) (r : Fin 100) (n : Nat),
    (∀ h : r.val < 77, n = (c.dxStatic ⟨r.val, h⟩).toNat) → (77 ≤ r.val → n = 20 * (99 - r.val)) →
    0 ≤ g.srmult.toInt → (n : Int) * g.srmult.toInt / 16777216 ≤ 2147483647 →
    (dxHold c g r).toInt = (n : Int) * g.srmult.toInt / 16777216

/-- 42_eg_dexed.md R106: `DXKEY` acts only on a transition, entering stage 0 on a press and stage 3 on a release; an
index out of range is a no-op. -/
def Obligations.DxkeyActsOnlyOnATransition : Prop :=
  ∀ (s : State) (k : BitVec 8) (down : Bool), s.inited = true →
    (s.nops ≤ k.toNat → exec (.dxkey k down) s = .next s) ∧
    ∀ op : Operator, s.ops[k.toNat]? = some op →
      ∃ d : Dx, exec (.dxkey k down) s = .next { s with ops := s.ops.set k.toNat { op with dx := d } } ∧
        (op.dx.down = down → d = op.dx) ∧
        (op.dx.down ≠ down → StageEntered s.cfg s.g op.p { op.dx with down := down } d (if down then 0 else 3))

/-- 42_eg_dexed.md R110: `DXUPD` re-enters stage 2 in the held sustain stage, and in every case clears `DXDIRTY`; an
index out of range is a no-op. -/
def Obligations.DxupdActsOnlyInTheHeldSustain : Prop :=
  ∀ (s : State) (k : BitVec 8), s.inited = true →
    (s.nops ≤ k.toNat → exec (.dxupd k) s = .next s) ∧
    ∀ op : Operator, s.ops[k.toNat]? = some op →
      ∃ d : Dx, exec (.dxupd k) s = .next { s with
          ops := s.ops.set k.toNat { op with dx := d, dxDirty := false } } ∧
        (op.dx.down = true ∧ op.dx.ix.val = 3 → StageEntered s.cfg s.g op.p op.dx d 2) ∧
        (¬ (op.dx.down = true ∧ op.dx.ix.val = 3) → d = op.dx)

/-- 42_eg_dexed.md R107, a hold active: the count falls by the frame count; when it runs out the next stage is entered; the
level is not updated. -/
def Obligations.DxsmpCountsAHoldDown : Prop :=
  ∀ (s : State) (k : BitVec 8) (n : BitVec 32) (op : Operator), s.inited = true → s.ops[k.toNat]? = some op →
    0 < op.dx.staticcount.toInt → op.dx.ix.val ≤ 3 →
    let left := op.dx.staticcount.toInt - min n.toNat (2 ^ 31 - 1)
    ∃ d : Dx, exec (.dxsmp k n) s = .next { s with
        ops := s.ops.set k.toNat { op with dx := d }, responses := s.responses ++ [.int op.dx.level] } ∧
      (left ≤ 0 → StageEntered s.cfg s.g op.p { op.dx with staticcount := 0 } d (op.dx.ix.val + 1)) ∧
      (0 < left → ∃ x : I32, x.toInt = left ∧ d = { op.dx with staticcount := x })

/-- 42_eg_dexed.md R107, R108, R113 c, d, a rising stage with an increment, where the value fits Int32: the update, which is what
`DX_RISE` gives or, where that is lower, the level it had; the landing on the target; and a level that `DX_RISE` does not raise,
above its ceiling, is stuck (60_exceptions.md R182). That it is stuck also where R108's factor is negative rests on
notes/assumptions/15.md (DEDUCED). -/
def Obligations.DxsmpRisesToTheTarget : Prop :=
  ∀ (s : State) (k : BitVec 8) (n : BitVec 32) (op : Operator), s.inited = true → s.ops[k.toNat]? = some op →
    op.dx.staticcount.toInt ≤ 0 → (op.dx.ix.val < 3 ∨ (op.dx.ix.val = 3 ∧ op.dx.down = false)) →
    op.dx.rising = true → op.dx.inc ≠ 0 →
    let rise := s.cfg.dxRise op.dx.level op.dx.inc
    let x := max op.dx.level.toInt rise
    x ≤ 2147483647 →
    ∃ d : Dx, exec (.dxsmp k n) s = .next { s with
        ops := s.ops.set k.toNat { op with dx := d }, responses := s.responses ++ [.int d.level] } ∧
      (op.dx.target.toInt ≤ x →
        StageEntered s.cfg s.g op.p { op.dx with level := op.dx.target } d (op.dx.ix.val + 1)) ∧
      (x < op.dx.target.toInt → ∃ l : I32, l.toInt = x ∧ d = { op.dx with level := l }) ∧
      (rise ≤ op.dx.level.toInt → op.dx.level.toInt < op.dx.target.toInt → d = op.dx)

/-- 42_eg_dexed.md R107, R109, a falling stage, where the value fits Int32: the update, and the landing on the target. That a stage
with increment 0 exactly at its target lands rests on notes/assumptions/15.md (DEDUCED). -/
def Obligations.DxsmpFallsToTheTarget : Prop :=
  ∀ (s : State) (k : BitVec 8) (n : BitVec 32) (op : Operator), s.inited = true → s.ops[k.toNat]? = some op →
    op.dx.staticcount.toInt ≤ 0 → (op.dx.ix.val < 3 ∨ (op.dx.ix.val = 3 ∧ op.dx.down = false)) →
    op.dx.rising = false →
    let x := op.dx.level.toInt - op.dx.inc.toInt
    x ≤ 2147483647 → -2147483648 ≤ x →
    ∃ d : Dx, exec (.dxsmp k n) s = .next { s with
        ops := s.ops.set k.toNat { op with dx := d }, responses := s.responses ++ [.int d.level] } ∧
      (x ≤ op.dx.target.toInt →
        StageEntered s.cfg s.g op.p { op.dx with level := op.dx.target } d (op.dx.ix.val + 1)) ∧
      (op.dx.target.toInt < x → ∃ l : I32, l.toInt = x ∧ d = { op.dx with level := l })

/-- 60_exceptions.md R182, 42_eg_dexed.md R113 c: a moving stage with increment 0 whose target is not reached is stuck: `DXSMP`
responds the level and changes nothing of the engine. For a rising stage it rests on notes/assumptions/15.md (DEDUCED). -/
def Obligations.DxsmpStallsAtIncrementZero : Prop :=
  ∀ (s : State) (k : BitVec 8) (n : BitVec 32) (op : Operator), s.inited = true → s.ops[k.toNat]? = some op →
    op.dx.staticcount.toInt ≤ 0 → (op.dx.ix.val < 3 ∨ (op.dx.ix.val = 3 ∧ op.dx.down = false)) →
    op.dx.inc = 0 → (op.dx.rising = true ∨ (op.dx.rising = false ∧ op.dx.target.toInt < op.dx.level.toInt)) →
    exec (.dxsmp k n) s = .next { s with responses := s.responses ++ [.int op.dx.level] }

/-- 42_eg_dexed.md R107: in the held sustain stage and in stage 4, with no hold, `DXSMP` responds the level and changes
nothing of the engine. -/
def Obligations.DxsmpRestsInSustainAndStageFour : Prop :=
  ∀ (s : State) (k : BitVec 8) (n : BitVec 32) (op : Operator), s.inited = true → s.ops[k.toNat]? = some op →
    op.dx.staticcount.toInt ≤ 0 → (op.dx.ix.val = 4 ∨ (op.dx.ix.val = 3 ∧ op.dx.down = true)) →
    exec (.dxsmp k n) s = .next { s with responses := s.responses ++ [.int op.dx.level] }

/-- 42_eg_dexed.md R111 (derived there): with no hold running, stage 4 is left by key events alone (`INIT` re-enters it). -/
def Obligations.StageFourIsLeftOnlyByAKeyEvent : Prop :=
  ∀ (i : Instr) (s t : State) (a : Nat) (op op' : Operator),
    exec i s = .next t → s.ops[a]? = some op → t.ops[a]? = some op' →
    op.dx.ix.val = 4 → op.dx.staticcount.toInt ≤ 0 → op'.dx.ix.val ≠ 4 →
    (∃ (k : BitVec 8) (down : Bool), i = .dxkey k down ∧ k.toNat = a ∧ op.dx.down ≠ down) ∨
    (i = .noteon ∧ s.variant = .sw ∧ op.dx.down = false) ∨ (i = .noteoff ∧ s.variant = .sw ∧ op.dx.down = true)

/-- 42_eg_dexed.md R113 b (derived there): the candidates of CFG_T meet the bounds, and under every numeric configuration that
meets them no Dexed-style value of a bounded engine falls outside Int32. -/
def Obligations.CandidateValuesFitInt32 : Prop :=
  Config.cfgT.WithinInt32 ∧
  ∀ (c : Config) (g : Globals) (p : Params) (d : Dx), c.Valid → c.WithinInt32 →
    g.maxenv.toNat ≤ 4064 → 0 ≤ g.srmult.toInt → d.Bounded 251658240 →
    (∀ r, fitsI32 (asr ((dxHoldCount c r : Int) * g.srmult.toInt) 24) = true) ∧
    (∀ s, fitsI32 (shl (dxTargetUnits c g (p.dxLevel s)) 16) = true) ∧
    (1 ≤ d.inc.toInt → fitsI32 (c.dxRise d.level d.inc) = true) ∧
    fitsI32 (d.level.toInt - d.inc.toInt) = true

/-- 42_eg_dexed.md R113 a (derived there): under every numeric configuration that meets the candidates' bounds, every step keeps
the bounds of every Dexed-style engine: the level between 0 and `TMAX`, the hold count not negative. That `SRMULT` is not
negative after an `INIT` on the way rests on notes/assumptions/6.md (DEDUCED). -/
def Obligations.StepKeepsDexedBounds : Prop :=
  ∀ s t : State, s.cfg.WithinInt32 → s.DxBounded → step s = .next t → t.DxBounded

/-! ### Note events -/

/-- 44_voice_commands.md R167, R168, `VARIANT = FM`: `NOTEON` re-triggers every DX7-style engine and zeroes the phases,
`NOTEOFF` releases every engine; nothing else changes. -/
def Obligations.NoteEventsDriveTheDx7Engines : Prop :=
  ∀ s : State, s.inited = true → s.variant = .fm →
    exec .noteon s = .next { s with ops := s.ops.map (fun op =>
      { op with eg := { op.eg with cur := .e1, frame := 0, level := s.cfg.rnd 0 }, ph := s.cfg.rnd 0 }) } ∧
    exec .noteoff s = .next { s with ops := s.ops.map (fun op =>
      { op with eg := { op.eg with cur := .e4, frame := 0 } }) }

/-- 44_voice_commands.md R167, R168, `VARIANT = SW`: `NOTEON` presses every key and zeroes the phases, `NOTEOFF` releases
every key; a key already so does not act. -/
def Obligations.NoteEventsDriveTheDexedEngines : Prop :=
  ∀ s : State, s.inited = true → s.variant = .sw →
    (∃ t, exec .noteon s = .next t ∧ t = { s with ops := t.ops } ∧ t.nops = s.nops ∧
      ∀ (a : Nat) (op : Operator), s.ops[a]? = some op → ∃ d : Dx,
        t.ops[a]? = some { op with dx := d, ph := s.cfg.rnd 0 } ∧ (op.dx.down = true → d = op.dx) ∧
        (op.dx.down = false → StageEntered s.cfg s.g op.p { op.dx with down := true } d 0)) ∧
    (∃ t, exec .noteoff s = .next t ∧ t = { s with ops := t.ops } ∧ t.nops = s.nops ∧
      ∀ (a : Nat) (op : Operator), s.ops[a]? = some op → ∃ d : Dx,
        t.ops[a]? = some { op with dx := d } ∧ (op.dx.down = false → d = op.dx) ∧
        (op.dx.down = true → StageEntered s.cfg s.g op.p { op.dx with down := false } d 3))

/-- 44_voice_commands.md R163: the engine that is not selected is untouched by `NOTEON`, `NOTEOFF`, `TICK` and `RENDER`. -/
def Obligations.VoiceCommandsLeaveTheOtherEngine : Prop :=
  ∀ (i : Instr) (s : State), (i = .noteon ∨ i = .noteoff ∨ i = .tick ∨ ∃ n, i = .render n) →
    ∃ t, exec i s = .next t ∧ t.nops = s.nops ∧
      ∀ (a : Nat) (op op' : Operator), s.ops[a]? = some op → t.ops[a]? = some op' →
        (s.variant = .fm → op'.dx = op.dx) ∧ (s.variant = .sw → op'.eg = op.eg)

/-! ### The sample tick -/

/-- 43_operator_mod_mix.md R135: `wrap01` is what its two loops leave, and whether they end is read from them, under every `rnd`;
in exact arithmetic they end within `abs(p) + 1` turns at `p - floor(p)`, in [0, 1). -/
def Obligations.PhaseLoopsReachTheFraction : Prop :=
  ∀ (c : Config) (p : ℚ), c.Valid →
    (∀ q, WrapsTo c.rnd p q ↔ wrapEnds c p = true ∧ wrap01 c p = q) ∧
    (c.Exact → wrapEnds c p = true ∧ wrap01 c p = p - (⌊p⌋ : ℚ) ∧ 0 ≤ wrap01 c p ∧ wrap01 c p < 1) ∧
    (c.Exact → ∀ fuel : Nat, |p| + 1 ≤ (fuel : ℚ) →
      wrapEnded c.rnd fuel p = true ∧ wrapLoops c.rnd fuel p = p - (⌊p⌋ : ℚ))

/-- 44_voice_commands.md R170, 43_operator_mod_mix.md R147, `VARIANT = FM`: one `TICK` whose phase loops end, that of operator `a`
at `φ a` and that of its temporary phase at `ψ a`. Every operator's DX7-style engine is stepped as `EGADV` steps it, its phase
advances, its output `y` is its earlier level times the waveform at `ψ`, and the mix of the outputs is emitted; phase and output
are stored through `rnd`. -/
def Obligations.TickProducesOneFmSample : Prop :=
  ∀ (s : State) (φ ψ : Nat → ℚ), s.inited = true → s.variant = .fm →
    (∀ (a : Nat) (op : Operator), s.ops[a]? = some op →
      WrapsTo s.cfg.rnd (op.ph + s.cfg.detuneCombine op.p.ratio op.p.detune * op.p.f0 / s.g.sr.toNat) (φ a) ∧
      WrapsTo s.cfg.rnd (s.cfg.rnd (φ a) + ∑ j ∈ Finset.range s.nops, s.weight a j * s.prevOut j) (ψ a)) →
    ∃ (t : State) (m : ℚ) (y : Nat → ℚ), exec .tick s = .next t ∧
      t = { s with ops := t.ops, pp := !s.pp, samples := s.samples ++ [{ mix := m, out := s.cfg.toOut m }] } ∧
      t.nops = s.nops ∧
      m = ∑ i ∈ Finset.range s.nops, s.olevOf i * y i ∧
      (∀ (a : Nat) (op : Operator), s.ops[a]? = some op →
        y a = op.eg.level * s.cfg.wave op.p.wsel (ψ a) ∧
        t.prevOut a = s.cfg.rnd (y a) ∧
        ∃ e : Eg, t.ops[a]? = some (
          if s.pp then { op with eg := e, ph := s.cfg.rnd (φ a), prev0 := s.cfg.rnd (y a) }
          else { op with eg := e, ph := s.cfg.rnd (φ a), prev1 := s.cfg.rnd (y a) })) ∧
      ∀ (k : BitVec 8) (op' : Operator), t.ops[k.toNat]? = some op' →
        ∃ (u : State) (opk : Operator), exec (.egadv k) s = .next u ∧ u.ops[k.toNat]? = some opk ∧ op'.eg = opk.eg

/-- 44_voice_commands.md R170, 43_operator_mod_mix.md R139, R141, R146, R147, `VARIANT = SW` with its two operators: one
`TICK` whose phase loops end, at `φ0`, `φ1` and, with the modulation, at `ψ0`, `ψ1`. Both Dexed-style engines are stepped as
`DXSMP i, 1` steps them, the carrier is modulated by the modulator's earlier output when serial, the modulator by the feedback
ring, and carrier or both are mixed; phases, outputs and the ring are stored through `rnd`. -/
def Obligations.TickProducesOneSwSample : Prop :=
  ∀ (s : State) (op0 op1 : Operator) (φ0 φ1 ψ0 ψ1 : ℚ), s.inited = true → s.variant = .sw → s.ops = [op0, op1] →
    let raw := fun op : Operator => op.ph + s.cfg.detuneCombine op.p.ratio op.p.detune * op.p.f0 / s.g.sr.toNat
    let fb := (((((s.cfg.toQ24 s.fb0).toInt + (s.cfg.toQ24 s.fb1).toInt) / 2 ^ s.cfg.fbShift s.g.fbamt : Int) : ℚ)) / 2 ^ 24
    let mod0 := if s.g.route then 0 else (if s.pp then op1.prev1 else op1.prev0)
    WrapsTo s.cfg.rnd (raw op0) φ0 → WrapsTo s.cfg.rnd (s.cfg.rnd φ0 + mod0) ψ0 →
    WrapsTo s.cfg.rnd (raw op1) φ1 → WrapsTo s.cfg.rnd (s.cfg.rnd φ1 + fb) ψ1 →
    ∃ (u0 u1 t : State) (op0' op1' : Operator) (d0 d1 : Dx) (m : ℚ),
      exec (.dxsmp 0 1) s = .next u0 ∧ u0.ops[0]? = some op0' ∧ d0 = op0'.dx ∧
      exec (.dxsmp 1 1) s = .next u1 ∧ u1.ops[1]? = some op1' ∧ d1 = op1'.dx ∧
      exec .tick s = .next t ∧
      (let y0 := s.cfg.dxGain d0.level * s.cfg.wave op0.p.wsel ψ0
       let y1 := s.cfg.dxGain d1.level * s.cfg.wave op1.p.wsel ψ1
       m = (if s.g.route then op0.p.olev * y0 + op1.p.olev * y1 else op0.p.olev * y0) ∧
       t = { s with
         ops :=
           if s.pp then
             [{ op0 with dx := d0, ph := s.cfg.rnd φ0, prev0 := s.cfg.rnd y0 },
               { op1 with dx := d1, ph := s.cfg.rnd φ1, prev0 := s.cfg.rnd y1 }]
           else
             [{ op0 with dx := d0, ph := s.cfg.rnd φ0, prev1 := s.cfg.rnd y0 },
               { op1 with dx := d1, ph := s.cfg.rnd φ1, prev1 := s.cfg.rnd y1 }]
         fb0 := s.cfg.rnd y1
         fb1 := s.cfg.rnd s.fb0
         pp := !s.pp
         samples := s.samples ++ [{ mix := m, out := s.cfg.toOut m }] })

/-- 60_exceptions.md R182, 43_operator_mod_mix.md R135: a `TICK` either has loops that all end, and then emits its one sample, or
has one that never ends, and then leaves the block stuck without any signal; a stuck block stays as it is, and no other command
but `RENDER` can stick it. What a stuck block is, is the model's reading (notes/assumptions/16.md). -/
def Obligations.ALoopThatNeverEndsSticksTheBlock : Prop :=
  (∀ s : State, s.inited = true →
    let ends := fun (a : Nat) (op : Operator) => ∃ φ ψ : ℚ,
      WrapsTo s.cfg.rnd (op.ph + s.cfg.detuneCombine op.p.ratio op.p.detune * op.p.f0 / s.g.sr.toNat) φ ∧
      WrapsTo s.cfg.rnd (s.cfg.rnd φ + s.modInput a op) ψ
    ∃ t, exec .tick s = .next t ∧
      (((∀ (a : Nat) (op : Operator), s.ops[a]? = some op → ends a op) ∧ t.stuck = s.stuck ∧
          ∃ x, t.samples = s.samples ++ [x]) ∨
        ((∃ (a : Nat) (op : Operator), s.ops[a]? = some op ∧ ¬ ends a op) ∧ t = { s with stuck := true }))) ∧
  (∀ s : State, s.stuck = true → step s = .next s) ∧
  (∀ (i : Instr) (s t : State), i ≠ .tick → (∀ n, i ≠ .render n) → exec i s = .next t → t.stuck = s.stuck)

/-- 10_state.md R26 (derived there): after two ticks of the `SW` variant, where their loops end, the feedback ring holds the
modulator's two previous outputs, the older one stored through `rnd` once more; in exact arithmetic the loops end and it is that
output. -/
def Obligations.FeedbackRingFollowsTheModulator : Prop :=
  ∀ s : State, s.stuck = false → s.inited = true → s.variant = .sw → 2 ≤ s.nops →
    ∃ t, execAll [.tick, .tick] s = .next t ∧ (s.cfg.Exact → t.stuck = false) ∧
      (t.stuck = false → ∃ op, t.ops[1]? = some op ∧
        t.fb0 = op.prevAt t.pp ∧ t.fb1 = s.cfg.rnd (op.prevAt (!t.pp)) ∧
        (s.cfg.Exact → t.fb1 = op.prevAt (!t.pp)))

/-- 43_operator_mod_mix.md R145: in exact arithmetic the mix of the `FM` variant is at most NOPS in size in a legal state. -/
def Obligations.FmMixIsBoundedByTheOperatorCount : Prop :=
  ∀ s : State, s.cfg.Exact → s.Legal → s.inited = true → s.variant = .fm →
    ∃ (t : State) (x : Sample), exec .tick s = .next t ∧ t.samples = s.samples ++ [x] ∧ |x.mix| ≤ (s.nops : ℚ)

/-! ### Blocks -/

/-- 44_voice_commands.md R169: `RENDER 0` refreshes the operators of the selected engine whose flag is set, and nothing
else; the other engine's flags stay. -/
def Obligations.RenderZeroOnlyRefreshes : Prop :=
  ∀ s : State, s.inited = true →
    ∃ t, exec (.render 0) s = .next t ∧ t = { s with ops := t.ops } ∧ t.nops = s.nops ∧
      ∀ (k : BitVec 8) (op : Operator), s.ops[k.toNat]? = some op → ∃ op', t.ops[k.toNat]? = some op' ∧
        (s.variant = .fm → op.egDirty = true → ∃ u, exec (.egset k) s = .next u ∧ u.ops[k.toNat]? = some op') ∧
        (s.variant = .fm → op.egDirty = false → op' = op) ∧
        (s.variant = .sw → op.dxDirty = true → ∃ u, exec (.dxupd k) s = .next u ∧ u.ops[k.toNat]? = some op') ∧
        (s.variant = .sw → op.dxDirty = false → op' = op)

/-- 44_voice_commands.md R169: `RENDER n` is the refresh of every operator of the selected engine whose flag is set, then `n`
times `TICK`. Where a tick never ends, that the ended ticks before it and their samples are kept, and no further one is run, is the
model's choice (notes/assumptions/16.md, DESIGN CHOICE). -/
def Obligations.RenderIsRefreshThenTicks : Prop :=
  ∀ (s : State) (n : BitVec 32), s.stuck = false → s.inited = true →
    ∃ r : State, r = { s with ops := r.ops } ∧ r.nops = s.nops ∧
      (∀ (a : Nat) (op : Operator), s.ops[a]? = some op →
        (s.variant = .fm → op.egDirty = true → ∃ t : StepTable, TableBuilt s.cfg op.p t ∧
          r.ops[a]? = some { op with eg := { op.eg with step := t }, egDirty := false }) ∧
        (s.variant = .fm → op.egDirty = false → r.ops[a]? = some op) ∧
        (s.variant = .sw → op.dxDirty = true → ∃ d : Dx, r.ops[a]? = some { op with dx := d, dxDirty := false } ∧
          (op.dx.down = true ∧ op.dx.ix.val = 3 → StageEntered s.cfg s.g op.p op.dx d 2) ∧
          (¬ (op.dx.down = true ∧ op.dx.ix.val = 3) → d = op.dx)) ∧
        (s.variant = .sw → op.dxDirty = false → r.ops[a]? = some op)) ∧
      exec (.render n) s = execAll (List.replicate n.toNat .tick) r

/-- 44_voice_commands.md R169, 43_operator_mod_mix.md R147: a block may be split: `RENDER a` then `RENDER b` is
`RENDER (a + b)`, sample for sample and state for state. Where a tick of either block never ends, and from a stuck state, it rests
on the model's choice of what is kept and of what `exec` does there (notes/assumptions/16.md, DESIGN CHOICE). -/
def Obligations.SplitBlocksRenderTheSameSamples : Prop :=
  ∀ (s : State) (a b : BitVec 32), a.toNat + b.toNat < 2 ^ 32 →
    ∃ t u, exec (.render a) s = .next t ∧ exec (.render b) t = .next u ∧ exec (.render (a + b)) s = .next u

/-! ### What never drifts -/

/-- The state at reset is legal. Which instance it is and the values of its registers are the model's choice
(notes/assumptions/1.md, 2.md). -/
def Obligations.ResetStateIsLegal : Prop := State.reset.Legal

/-- 70_reset_and_hazards.md R207 (derived there), in exact arithmetic: every step keeps a legal state legal: phases in [0, 1),
DX7-style levels in [0, 1], hold counts not negative, registers in their ranges, the step table's level chain, no loop that never ends. The bounds of the
Dexed-style level are `StepKeepsDexedBounds`. That `SRMULT` is not negative after `INIT` rests on notes/assumptions/6.md
(DEDUCED). -/
def Obligations.StepKeepsTheStateLegal : Prop :=
  ∀ s t : State, s.cfg.Exact → s.Legal → step s = .next t → t.Legal

/-- Any number of steps from a legal state is, in exact arithmetic, a safe run: no step stops and no state on the way is illegal.
That `SRMULT` is not negative after an `INIT` on the way rests on notes/assumptions/6.md (DEDUCED). -/
def Obligations.RunsFromLegalStatesAreSafe : Prop := ∀ (n : Nat) (s : State), s.cfg.Exact → s.Legal → SafeFor n s

/-- 42_eg_dexed.md R113 a (derived there): `INIT` from any state establishes the bounds of every Dexed-style engine. That `SRMULT`
is not negative then rests on notes/assumptions/6.md (DEDUCED). -/
def Obligations.InitEstablishesDexedBounds : Prop :=
  ∀ (s : State) (sr : BitVec 32), ∃ t, exec (.init sr) s = .next t ∧ t.DxBounded

/-! ### The host's side -/

/-- 30_encoding.md R66: the expansions of the pseudo-instructions, and exact Real operands. -/
def Obligations.PseudoInstructionsExpand : Prop :=
  (∀ (i : BitVec 8) (a b c d e f g h : BitVec 32),
    (Pseudo.setdx7 i a b c d e f g h).expand = [.wrp i 0x00 a, .wrp i 0x01 b, .wrp i 0x02 c, .wrp i 0x03 d,
      .wrp i 0x04 e, .wrp i 0x05 f, .wrp i 0x06 g, .wrp i 0x07 h, .egset i] ∧
    (Pseudo.setdxp i a b c d e f g h).expand = [.wrp i 0x08 a, .wrp i 0x09 b, .wrp i 0x0A c, .wrp i 0x0B d,
      .wrp i 0x0C e, .wrp i 0x0D f, .wrp i 0x0E g, .wrp i 0x0F h] ∧
    (Pseudo.setf a).expand = [.wrg 0 a] ∧
    (Pseudo.keydn i).expand = [.dxkey i true] ∧ (Pseudo.keyup i).expand = [.dxkey i false] ∧
    ∀ ws : List (BitVec 32), (Pseudo.wrmrow i ws).expand.length = ws.length ∧
      ∀ (j : Nat) (w : BitVec 32), ws[j]? = some w → (Pseudo.wrmrow i ws).expand[j]? = some (.wrm i (BitVec.ofNat 16 j) w)) ∧
  (∀ (x : ℚ) (v : BitVec 32), asmUq16 x = some v ↔ x = (v.toNat : ℚ) / 65536) ∧
  (∀ (x : ℚ) (v : BitVec 32), asmSq16 x = some v ↔ x = (v.toInt : ℚ) / 65536)
end

