-- ==== Sys2Proof/Laws/Encoding.lean ====
section
/-! SUPPORT. The four fields of a packed word (30_encoding.md R50). -/

namespace Sys2Proof

@[simp] theorem opcOf_packWord (a b : BitVec 8) (c : BitVec 16) (d : BitVec 32) : opcOf (packWord a b c d) = a := by
  unfold opcOf packWord
  apply BitVec.eq_of_getElem_eq
  intro i hi
  simp only [BitVec.getElem_extractLsb', BitVec.getLsbD_append]
  rw [if_neg (by omega), if_neg (by omega), if_neg (by omega), BitVec.getLsbD_eq_getElem (by omega)]
  congr 1
  omega

@[simp] theorem opiOf_packWord (a b : BitVec 8) (c : BitVec 16) (d : BitVec 32) : opiOf (packWord a b c d) = b := by
  unfold opiOf packWord
  apply BitVec.eq_of_getElem_eq
  intro i hi
  simp only [BitVec.getElem_extractLsb', BitVec.getLsbD_append]
  rw [if_neg (by omega), if_neg (by omega), if_pos (by omega), BitVec.getLsbD_eq_getElem (by omega)]
  congr 1
  omega

@[simp] theorem selOf_packWord (a b : BitVec 8) (c : BitVec 16) (d : BitVec 32) : selOf (packWord a b c d) = c := by
  unfold selOf packWord
  apply BitVec.eq_of_getElem_eq
  intro i hi
  simp only [BitVec.getElem_extractLsb', BitVec.getLsbD_append]
  rw [if_neg (by omega), if_pos (by omega), BitVec.getLsbD_eq_getElem (by omega)]
  congr 1
  omega

@[simp] theorem immOf_packWord (a b : BitVec 8) (c : BitVec 16) (d : BitVec 32) : immOf (packWord a b c d) = d := by
  unfold immOf packWord
  apply BitVec.eq_of_getElem_eq
  intro i hi
  simp only [BitVec.getElem_extractLsb', BitVec.getLsbD_append]
  rw [if_pos (by omega), BitVec.getLsbD_eq_getElem (by omega)]
  congr 1
  omega

end Sys2Proof
end

