-- ==== Sys2Proof/Laws/State.lean ====
section
/-! SUPPORT. One lemma per field per named update of the state, so that no later proof unfolds a record update. -/

namespace Sys2Proof.Machine

/-! `State.respond` -/

@[simp] theorem State.respond_inited (s : State) (rs : List Response) : (s.respond rs).inited = s.inited := rfl
@[simp] theorem State.respond_g (s : State) (rs : List Response) : (s.respond rs).g = s.g := rfl
@[simp] theorem State.respond_ops (s : State) (rs : List Response) : (s.respond rs).ops = s.ops := rfl
@[simp] theorem State.respond_fb0 (s : State) (rs : List Response) : (s.respond rs).fb0 = s.fb0 := rfl
@[simp] theorem State.respond_fb1 (s : State) (rs : List Response) : (s.respond rs).fb1 = s.fb1 := rfl
@[simp] theorem State.respond_pp (s : State) (rs : List Response) : (s.respond rs).pp = s.pp := rfl
@[simp] theorem State.respond_variant (s : State) (rs : List Response) : (s.respond rs).variant = s.variant := rfl
@[simp] theorem State.respond_numeric (s : State) (rs : List Response) : (s.respond rs).numeric = s.numeric := rfl
@[simp] theorem State.respond_responses (s : State) (rs : List Response) : (s.respond rs).responses = s.responses ++ rs := rfl
@[simp] theorem State.respond_samples (s : State) (rs : List Response) : (s.respond rs).samples = s.samples := rfl
@[simp] theorem State.respond_port (s : State) (rs : List Response) : (s.respond rs).port = s.port := rfl
@[simp] theorem State.respond_stuck (s : State) (rs : List Response) : (s.respond rs).stuck = s.stuck := rfl

/-! `State.emit` -/

@[simp] theorem State.emit_inited (s : State) (m : ℚ) : (s.emit m).inited = s.inited := rfl
@[simp] theorem State.emit_g (s : State) (m : ℚ) : (s.emit m).g = s.g := rfl
@[simp] theorem State.emit_ops (s : State) (m : ℚ) : (s.emit m).ops = s.ops := rfl
@[simp] theorem State.emit_fb0 (s : State) (m : ℚ) : (s.emit m).fb0 = s.fb0 := rfl
@[simp] theorem State.emit_fb1 (s : State) (m : ℚ) : (s.emit m).fb1 = s.fb1 := rfl
@[simp] theorem State.emit_pp (s : State) (m : ℚ) : (s.emit m).pp = s.pp := rfl
@[simp] theorem State.emit_variant (s : State) (m : ℚ) : (s.emit m).variant = s.variant := rfl
@[simp] theorem State.emit_numeric (s : State) (m : ℚ) : (s.emit m).numeric = s.numeric := rfl
@[simp] theorem State.emit_responses (s : State) (m : ℚ) : (s.emit m).responses = s.responses := rfl
@[simp] theorem State.emit_samples (s : State) (m : ℚ) : (s.emit m).samples = s.samples ++ [{ mix := m, out := s.cfg.toOut m }] := rfl
@[simp] theorem State.emit_port (s : State) (m : ℚ) : (s.emit m).port = s.port := rfl
@[simp] theorem State.emit_stuck (s : State) (m : ℚ) : (s.emit m).stuck = s.stuck := rfl

/-! `State.togglePp` -/

@[simp] theorem State.togglePp_inited (s : State) : (s.togglePp).inited = s.inited := rfl
@[simp] theorem State.togglePp_g (s : State) : (s.togglePp).g = s.g := rfl
@[simp] theorem State.togglePp_ops (s : State) : (s.togglePp).ops = s.ops := rfl
@[simp] theorem State.togglePp_fb0 (s : State) : (s.togglePp).fb0 = s.fb0 := rfl
@[simp] theorem State.togglePp_fb1 (s : State) : (s.togglePp).fb1 = s.fb1 := rfl
@[simp] theorem State.togglePp_pp (s : State) : (s.togglePp).pp = (!s.pp) := rfl
@[simp] theorem State.togglePp_variant (s : State) : (s.togglePp).variant = s.variant := rfl
@[simp] theorem State.togglePp_numeric (s : State) : (s.togglePp).numeric = s.numeric := rfl
@[simp] theorem State.togglePp_responses (s : State) : (s.togglePp).responses = s.responses := rfl
@[simp] theorem State.togglePp_samples (s : State) : (s.togglePp).samples = s.samples := rfl
@[simp] theorem State.togglePp_port (s : State) : (s.togglePp).port = s.port := rfl
@[simp] theorem State.togglePp_stuck (s : State) : (s.togglePp).stuck = s.stuck := rfl

/-! `State.onAll` -/

@[simp] theorem State.onAll_inited (s : State) (f : Operator → Operator) : (s.onAll f).inited = s.inited := rfl
@[simp] theorem State.onAll_g (s : State) (f : Operator → Operator) : (s.onAll f).g = s.g := rfl
@[simp] theorem State.onAll_ops (s : State) (f : Operator → Operator) : (s.onAll f).ops = s.ops.map f := rfl
@[simp] theorem State.onAll_fb0 (s : State) (f : Operator → Operator) : (s.onAll f).fb0 = s.fb0 := rfl
@[simp] theorem State.onAll_fb1 (s : State) (f : Operator → Operator) : (s.onAll f).fb1 = s.fb1 := rfl
@[simp] theorem State.onAll_pp (s : State) (f : Operator → Operator) : (s.onAll f).pp = s.pp := rfl
@[simp] theorem State.onAll_variant (s : State) (f : Operator → Operator) : (s.onAll f).variant = s.variant := rfl
@[simp] theorem State.onAll_numeric (s : State) (f : Operator → Operator) : (s.onAll f).numeric = s.numeric := rfl
@[simp] theorem State.onAll_responses (s : State) (f : Operator → Operator) : (s.onAll f).responses = s.responses := rfl
@[simp] theorem State.onAll_samples (s : State) (f : Operator → Operator) : (s.onAll f).samples = s.samples := rfl
@[simp] theorem State.onAll_port (s : State) (f : Operator → Operator) : (s.onAll f).port = s.port := rfl
@[simp] theorem State.onAll_stuck (s : State) (f : Operator → Operator) : (s.onAll f).stuck = s.stuck := rfl

/-! `State.initialise` -/

@[simp] theorem State.initialise_inited (s : State) (sr : BitVec 32) : (s.initialise sr).inited = true := rfl
@[simp] theorem State.initialise_g (s : State) (sr : BitVec 32) : (s.initialise sr).g = Globals.initial s.cfg sr := rfl
@[simp] theorem State.initialise_ops (s : State) (sr : BitVec 32) : (s.initialise sr).ops = List.replicate s.nops (Operator.initial s.cfg s.nops) := rfl
@[simp] theorem State.initialise_fb0 (s : State) (sr : BitVec 32) : (s.initialise sr).fb0 = s.cfg.rnd 0 := rfl
@[simp] theorem State.initialise_fb1 (s : State) (sr : BitVec 32) : (s.initialise sr).fb1 = s.cfg.rnd 0 := rfl
@[simp] theorem State.initialise_pp (s : State) (sr : BitVec 32) : (s.initialise sr).pp = false := rfl
@[simp] theorem State.initialise_variant (s : State) (sr : BitVec 32) : (s.initialise sr).variant = s.variant := rfl
@[simp] theorem State.initialise_numeric (s : State) (sr : BitVec 32) : (s.initialise sr).numeric = s.numeric := rfl
@[simp] theorem State.initialise_responses (s : State) (sr : BitVec 32) : (s.initialise sr).responses = s.responses := rfl
@[simp] theorem State.initialise_samples (s : State) (sr : BitVec 32) : (s.initialise sr).samples = s.samples := rfl
@[simp] theorem State.initialise_port (s : State) (sr : BitVec 32) : (s.initialise sr).port = s.port := rfl
@[simp] theorem State.initialise_stuck (s : State) (sr : BitVec 32) : (s.initialise sr).stuck = s.stuck := rfl

/-! `State.ticked` -/

@[simp] theorem State.ticked_inited (s : State) : s.ticked.inited = s.inited := rfl
@[simp] theorem State.ticked_g (s : State) : s.ticked.g = s.g := rfl
@[simp] theorem State.ticked_ops (s : State) : s.ticked.ops = s.ops.mapIdx (fun i op => s.tickOperator i op) := rfl
@[simp] theorem State.ticked_fb0 (s : State) : s.ticked.fb0 = s.nextFb0 := rfl
@[simp] theorem State.ticked_fb1 (s : State) : s.ticked.fb1 = s.nextFb1 := rfl
@[simp] theorem State.ticked_pp (s : State) : s.ticked.pp = (!s.pp) := rfl
@[simp] theorem State.ticked_variant (s : State) : s.ticked.variant = s.variant := rfl
@[simp] theorem State.ticked_numeric (s : State) : s.ticked.numeric = s.numeric := rfl
@[simp] theorem State.ticked_responses (s : State) : s.ticked.responses = s.responses := rfl
@[simp] theorem State.ticked_samples (s : State) : s.ticked.samples = s.samples ++ [{ mix := s.mix, out := s.cfg.toOut s.mix }] := rfl
@[simp] theorem State.ticked_port (s : State) : s.ticked.port = s.port := rfl
@[simp] theorem State.ticked_stuck (s : State) : s.ticked.stuck = s.stuck := rfl

/-! `sampleTick`: a tick whose loops end, or a stuck block -/

theorem sampleTick_ends {s : State} (h : s.tickEnds = true) : sampleTick s = s.ticked := by simp [sampleTick, h]
theorem sampleTick_stuck {s : State} (h : s.tickEnds = false) : sampleTick s = { s with stuck := true } := by
  simp [sampleTick, h]
@[simp] theorem sampleTick_inited (s : State) : (sampleTick s).inited = s.inited := by unfold sampleTick; split <;> rfl
@[simp] theorem sampleTick_g (s : State) : (sampleTick s).g = s.g := by unfold sampleTick; split <;> rfl
@[simp] theorem sampleTick_variant (s : State) : (sampleTick s).variant = s.variant := by unfold sampleTick; split <;> rfl
@[simp] theorem sampleTick_numeric (s : State) : (sampleTick s).numeric = s.numeric := by unfold sampleTick; split <;> rfl
@[simp] theorem sampleTick_responses (s : State) : (sampleTick s).responses = s.responses := by unfold sampleTick; split <;> rfl
@[simp] theorem sampleTick_port (s : State) : (sampleTick s).port = s.port := by unfold sampleTick; split <;> rfl

/-! `State.withFetchWord` -/

@[simp] theorem State.withFetchWord_inited (s : State) (nbits w : Nat) : (s.withFetchWord nbits w).inited = s.inited := rfl
@[simp] theorem State.withFetchWord_g (s : State) (nbits w : Nat) : (s.withFetchWord nbits w).g = s.g := rfl
@[simp] theorem State.withFetchWord_ops (s : State) (nbits w : Nat) : (s.withFetchWord nbits w).ops = s.ops := rfl
@[simp] theorem State.withFetchWord_fb0 (s : State) (nbits w : Nat) : (s.withFetchWord nbits w).fb0 = s.fb0 := rfl
@[simp] theorem State.withFetchWord_fb1 (s : State) (nbits w : Nat) : (s.withFetchWord nbits w).fb1 = s.fb1 := rfl
@[simp] theorem State.withFetchWord_pp (s : State) (nbits w : Nat) : (s.withFetchWord nbits w).pp = s.pp := rfl
@[simp] theorem State.withFetchWord_variant (s : State) (nbits w : Nat) : (s.withFetchWord nbits w).variant = s.variant := rfl
@[simp] theorem State.withFetchWord_numeric (s : State) (nbits w : Nat) : (s.withFetchWord nbits w).numeric = s.numeric := rfl
@[simp] theorem State.withFetchWord_responses (s : State) (nbits w : Nat) : (s.withFetchWord nbits w).responses = s.responses := rfl
@[simp] theorem State.withFetchWord_samples (s : State) (nbits w : Nat) : (s.withFetchWord nbits w).samples = s.samples := rfl
@[simp] theorem State.withFetchWord_port (s : State) (nbits w : Nat) : (s.withFetchWord nbits w).port = tableWord nbits w :: s.port := rfl
@[simp] theorem State.withFetchWord_stuck (s : State) (nbits w : Nat) : (s.withFetchWord nbits w).stuck = false := rfl

/-! `State.inner` -/

@[simp] theorem State.inner_inited (s : State) : (s.inner).inited = s.inited := rfl
@[simp] theorem State.inner_g (s : State) : (s.inner).g = s.g := rfl
@[simp] theorem State.inner_ops (s : State) : (s.inner).ops = s.ops := rfl
@[simp] theorem State.inner_fb0 (s : State) : (s.inner).fb0 = s.fb0 := rfl
@[simp] theorem State.inner_fb1 (s : State) : (s.inner).fb1 = s.fb1 := rfl
@[simp] theorem State.inner_pp (s : State) : (s.inner).pp = s.pp := rfl
@[simp] theorem State.inner_variant (s : State) : (s.inner).variant = s.variant := rfl
@[simp] theorem State.inner_numeric (s : State) : (s.inner).numeric = s.numeric := rfl
@[simp] theorem State.inner_responses (s : State) : (s.inner).responses = [] := rfl
@[simp] theorem State.inner_samples (s : State) : (s.inner).samples = [] := rfl
@[simp] theorem State.inner_port (s : State) : (s.inner).port = [] := rfl
@[simp] theorem State.inner_stuck (s : State) : (s.inner).stuck = s.stuck := rfl

/-! `onOperator`: only the operators and the responses can change -/

@[simp] theorem State.onOperator_inited (s : State) (i : BitVec 8) (f : Operator → Operator × List Response) :
    (s.onOperator i f).inited = s.inited := by
  unfold State.onOperator; split <;> rfl
@[simp] theorem State.onOperator_g (s : State) (i : BitVec 8) (f : Operator → Operator × List Response) :
    (s.onOperator i f).g = s.g := by
  unfold State.onOperator; split <;> rfl
@[simp] theorem State.onOperator_fb0 (s : State) (i : BitVec 8) (f : Operator → Operator × List Response) :
    (s.onOperator i f).fb0 = s.fb0 := by
  unfold State.onOperator; split <;> rfl
@[simp] theorem State.onOperator_fb1 (s : State) (i : BitVec 8) (f : Operator → Operator × List Response) :
    (s.onOperator i f).fb1 = s.fb1 := by
  unfold State.onOperator; split <;> rfl
@[simp] theorem State.onOperator_pp (s : State) (i : BitVec 8) (f : Operator → Operator × List Response) :
    (s.onOperator i f).pp = s.pp := by
  unfold State.onOperator; split <;> rfl
@[simp] theorem State.onOperator_variant (s : State) (i : BitVec 8) (f : Operator → Operator × List Response) :
    (s.onOperator i f).variant = s.variant := by
  unfold State.onOperator; split <;> rfl
@[simp] theorem State.onOperator_numeric (s : State) (i : BitVec 8) (f : Operator → Operator × List Response) :
    (s.onOperator i f).numeric = s.numeric := by
  unfold State.onOperator; split <;> rfl
@[simp] theorem State.onOperator_samples (s : State) (i : BitVec 8) (f : Operator → Operator × List Response) :
    (s.onOperator i f).samples = s.samples := by
  unfold State.onOperator; split <;> rfl
@[simp] theorem State.onOperator_port (s : State) (i : BitVec 8) (f : Operator → Operator × List Response) :
    (s.onOperator i f).port = s.port := by
  unfold State.onOperator; split <;> rfl
@[simp] theorem State.onOperator_stuck (s : State) (i : BitVec 8) (f : Operator → Operator × List Response) :
    (s.onOperator i f).stuck = s.stuck := by
  unfold State.onOperator; split <;> rfl
@[simp] theorem State.onOperator_length (s : State) (i : BitVec 8) (f : Operator → Operator × List Response) :
    (s.onOperator i f).ops.length = s.ops.length := by
  unfold State.onOperator; split <;> simp

/-! the derived readings -/

@[simp] theorem State.onAll_cfg (s : State) (f : Operator → Operator) : (s.onAll f).cfg = s.cfg := rfl
@[simp] theorem State.onAll_nops (s : State) (f : Operator → Operator) : (s.onAll f).nops = s.nops := by
  simp [State.nops]
@[simp] theorem State.onOperator_cfg (s : State) (i : BitVec 8) (f : Operator → Operator × List Response) :
    (s.onOperator i f).cfg = s.cfg := by
  simp [State.cfg]
@[simp] theorem State.onOperator_nops (s : State) (i : BitVec 8) (f : Operator → Operator × List Response) :
    (s.onOperator i f).nops = s.nops := by
  simp [State.nops]
@[simp] theorem State.initialise_cfg (s : State) (sr : BitVec 32) : (s.initialise sr).cfg = s.cfg := rfl
@[simp] theorem State.initialise_nops (s : State) (sr : BitVec 32) : (s.initialise sr).nops = s.nops := by
  simp [State.nops]
@[simp] theorem State.ticked_cfg (s : State) : s.ticked.cfg = s.cfg := rfl
@[simp] theorem State.ticked_nops (s : State) : s.ticked.nops = s.nops := by
  simp [State.nops]
@[simp] theorem sampleTick_cfg (s : State) : (sampleTick s).cfg = s.cfg := by
  simp [State.cfg]
@[simp] theorem sampleTick_nops (s : State) : (sampleTick s).nops = s.nops := by
  unfold sampleTick; split
  · exact s.ticked_nops
  · rfl

/-! the operator's updates -/

@[simp] theorem Operator.writeParam_p (c : Config) (op : Operator) (r : PReg) (v : BitVec 32) : (op.writeParam c r v).p = op.p.write c r v := rfl
@[simp] theorem Operator.writeParam_row (c : Config) (op : Operator) (r : PReg) (v : BitVec 32) : (op.writeParam c r v).row = op.row := rfl
@[simp] theorem Operator.writeParam_egDirty (c : Config) (op : Operator) (r : PReg) (v : BitVec 32) : (op.writeParam c r v).egDirty = (op.egDirty || PReg.marksEg r) := rfl
@[simp] theorem Operator.writeParam_dxDirty (c : Config) (op : Operator) (r : PReg) (v : BitVec 32) : (op.writeParam c r v).dxDirty = (op.dxDirty || PReg.marksDx r) := rfl
@[simp] theorem Operator.writeParam_eg (c : Config) (op : Operator) (r : PReg) (v : BitVec 32) : (op.writeParam c r v).eg = op.eg := rfl
@[simp] theorem Operator.writeParam_dx (c : Config) (op : Operator) (r : PReg) (v : BitVec 32) : (op.writeParam c r v).dx = op.dx := rfl
@[simp] theorem Operator.writeParam_ph (c : Config) (op : Operator) (r : PReg) (v : BitVec 32) : (op.writeParam c r v).ph = op.ph := rfl
@[simp] theorem Operator.writeParam_prev0 (c : Config) (op : Operator) (r : PReg) (v : BitVec 32) : (op.writeParam c r v).prev0 = op.prev0 := rfl
@[simp] theorem Operator.writeParam_prev1 (c : Config) (op : Operator) (r : PReg) (v : BitVec 32) : (op.writeParam c r v).prev1 = op.prev1 := rfl

@[simp] theorem Operator.markDx_p (op : Operator) : (op.markDx).p = op.p := rfl
@[simp] theorem Operator.markDx_row (op : Operator) : (op.markDx).row = op.row := rfl
@[simp] theorem Operator.markDx_egDirty (op : Operator) : (op.markDx).egDirty = op.egDirty := rfl
@[simp] theorem Operator.markDx_dxDirty (op : Operator) : (op.markDx).dxDirty = true := rfl
@[simp] theorem Operator.markDx_eg (op : Operator) : (op.markDx).eg = op.eg := rfl
@[simp] theorem Operator.markDx_dx (op : Operator) : (op.markDx).dx = op.dx := rfl
@[simp] theorem Operator.markDx_ph (op : Operator) : (op.markDx).ph = op.ph := rfl
@[simp] theorem Operator.markDx_prev0 (op : Operator) : (op.markDx).prev0 = op.prev0 := rfl
@[simp] theorem Operator.markDx_prev1 (op : Operator) : (op.markDx).prev1 = op.prev1 := rfl

@[simp] theorem Operator.setWeight_p (c : Config) (op : Operator) (j : Nat) (w : ℚ) : (op.setWeight c j w).p = op.p := rfl
@[simp] theorem Operator.setWeight_row (c : Config) (op : Operator) (j : Nat) (w : ℚ) : (op.setWeight c j w).row = op.row.set j (c.rnd w) := rfl
@[simp] theorem Operator.setWeight_egDirty (c : Config) (op : Operator) (j : Nat) (w : ℚ) : (op.setWeight c j w).egDirty = op.egDirty := rfl
@[simp] theorem Operator.setWeight_dxDirty (c : Config) (op : Operator) (j : Nat) (w : ℚ) : (op.setWeight c j w).dxDirty = op.dxDirty := rfl
@[simp] theorem Operator.setWeight_eg (c : Config) (op : Operator) (j : Nat) (w : ℚ) : (op.setWeight c j w).eg = op.eg := rfl
@[simp] theorem Operator.setWeight_dx (c : Config) (op : Operator) (j : Nat) (w : ℚ) : (op.setWeight c j w).dx = op.dx := rfl
@[simp] theorem Operator.setWeight_ph (c : Config) (op : Operator) (j : Nat) (w : ℚ) : (op.setWeight c j w).ph = op.ph := rfl
@[simp] theorem Operator.setWeight_prev0 (c : Config) (op : Operator) (j : Nat) (w : ℚ) : (op.setWeight c j w).prev0 = op.prev0 := rfl
@[simp] theorem Operator.setWeight_prev1 (c : Config) (op : Operator) (j : Nat) (w : ℚ) : (op.setWeight c j w).prev1 = op.prev1 := rfl

@[simp] theorem Operator.egRefresh_p (c : Config) (op : Operator) : (op.egRefresh c).p = op.p := rfl
@[simp] theorem Operator.egRefresh_row (c : Config) (op : Operator) : (op.egRefresh c).row = op.row := rfl
@[simp] theorem Operator.egRefresh_egDirty (c : Config) (op : Operator) : (op.egRefresh c).egDirty = false := rfl
@[simp] theorem Operator.egRefresh_dxDirty (c : Config) (op : Operator) : (op.egRefresh c).dxDirty = op.dxDirty := rfl
@[simp] theorem Operator.egRefresh_eg (c : Config) (op : Operator) : (op.egRefresh c).eg = { op.eg with step := buildSteps c op.p } := rfl
@[simp] theorem Operator.egRefresh_dx (c : Config) (op : Operator) : (op.egRefresh c).dx = op.dx := rfl
@[simp] theorem Operator.egRefresh_ph (c : Config) (op : Operator) : (op.egRefresh c).ph = op.ph := rfl
@[simp] theorem Operator.egRefresh_prev0 (c : Config) (op : Operator) : (op.egRefresh c).prev0 = op.prev0 := rfl
@[simp] theorem Operator.egRefresh_prev1 (c : Config) (op : Operator) : (op.egRefresh c).prev1 = op.prev1 := rfl

@[simp] theorem Operator.egAdvance_p (c : Config) (op : Operator) : (op.egAdvance c).p = op.p := rfl
@[simp] theorem Operator.egAdvance_row (c : Config) (op : Operator) : (op.egAdvance c).row = op.row := rfl
@[simp] theorem Operator.egAdvance_egDirty (c : Config) (op : Operator) : (op.egAdvance c).egDirty = op.egDirty := rfl
@[simp] theorem Operator.egAdvance_dxDirty (c : Config) (op : Operator) : (op.egAdvance c).dxDirty = op.dxDirty := rfl
@[simp] theorem Operator.egAdvance_eg (c : Config) (op : Operator) : (op.egAdvance c).eg = op.eg.advance c := rfl
@[simp] theorem Operator.egAdvance_dx (c : Config) (op : Operator) : (op.egAdvance c).dx = op.dx := rfl
@[simp] theorem Operator.egAdvance_ph (c : Config) (op : Operator) : (op.egAdvance c).ph = op.ph := rfl
@[simp] theorem Operator.egAdvance_prev0 (c : Config) (op : Operator) : (op.egAdvance c).prev0 = op.prev0 := rfl
@[simp] theorem Operator.egAdvance_prev1 (c : Config) (op : Operator) : (op.egAdvance c).prev1 = op.prev1 := rfl

@[simp] theorem Operator.dxSample_p (c : Config) (g : Globals) (op : Operator) (n : Nat) : (op.dxSample c g n).p = op.p := rfl
@[simp] theorem Operator.dxSample_row (c : Config) (g : Globals) (op : Operator) (n : Nat) : (op.dxSample c g n).row = op.row := rfl
@[simp] theorem Operator.dxSample_egDirty (c : Config) (g : Globals) (op : Operator) (n : Nat) : (op.dxSample c g n).egDirty = op.egDirty := rfl
@[simp] theorem Operator.dxSample_dxDirty (c : Config) (g : Globals) (op : Operator) (n : Nat) : (op.dxSample c g n).dxDirty = op.dxDirty := rfl
@[simp] theorem Operator.dxSample_eg (c : Config) (g : Globals) (op : Operator) (n : Nat) : (op.dxSample c g n).eg = op.eg := rfl
@[simp] theorem Operator.dxSample_dx (c : Config) (g : Globals) (op : Operator) (n : Nat) : (op.dxSample c g n).dx = op.dx.sample c g op.p n := rfl
@[simp] theorem Operator.dxSample_ph (c : Config) (g : Globals) (op : Operator) (n : Nat) : (op.dxSample c g n).ph = op.ph := rfl
@[simp] theorem Operator.dxSample_prev0 (c : Config) (g : Globals) (op : Operator) (n : Nat) : (op.dxSample c g n).prev0 = op.prev0 := rfl
@[simp] theorem Operator.dxSample_prev1 (c : Config) (g : Globals) (op : Operator) (n : Nat) : (op.dxSample c g n).prev1 = op.prev1 := rfl

@[simp] theorem Operator.dxKey_p (c : Config) (g : Globals) (op : Operator) (down : Bool) : (op.dxKey c g down).p = op.p := rfl
@[simp] theorem Operator.dxKey_row (c : Config) (g : Globals) (op : Operator) (down : Bool) : (op.dxKey c g down).row = op.row := rfl
@[simp] theorem Operator.dxKey_egDirty (c : Config) (g : Globals) (op : Operator) (down : Bool) : (op.dxKey c g down).egDirty = op.egDirty := rfl
@[simp] theorem Operator.dxKey_dxDirty (c : Config) (g : Globals) (op : Operator) (down : Bool) : (op.dxKey c g down).dxDirty = op.dxDirty := rfl
@[simp] theorem Operator.dxKey_eg (c : Config) (g : Globals) (op : Operator) (down : Bool) : (op.dxKey c g down).eg = op.eg := rfl
@[simp] theorem Operator.dxKey_dx (c : Config) (g : Globals) (op : Operator) (down : Bool) : (op.dxKey c g down).dx = op.dx.key c g op.p down := rfl
@[simp] theorem Operator.dxKey_ph (c : Config) (g : Globals) (op : Operator) (down : Bool) : (op.dxKey c g down).ph = op.ph := rfl
@[simp] theorem Operator.dxKey_prev0 (c : Config) (g : Globals) (op : Operator) (down : Bool) : (op.dxKey c g down).prev0 = op.prev0 := rfl
@[simp] theorem Operator.dxKey_prev1 (c : Config) (g : Globals) (op : Operator) (down : Bool) : (op.dxKey c g down).prev1 = op.prev1 := rfl

@[simp] theorem Operator.dxRefresh_p (c : Config) (g : Globals) (op : Operator) : (op.dxRefresh c g).p = op.p := rfl
@[simp] theorem Operator.dxRefresh_row (c : Config) (g : Globals) (op : Operator) : (op.dxRefresh c g).row = op.row := rfl
@[simp] theorem Operator.dxRefresh_egDirty (c : Config) (g : Globals) (op : Operator) : (op.dxRefresh c g).egDirty = op.egDirty := rfl
@[simp] theorem Operator.dxRefresh_dxDirty (c : Config) (g : Globals) (op : Operator) : (op.dxRefresh c g).dxDirty = false := rfl
@[simp] theorem Operator.dxRefresh_eg (c : Config) (g : Globals) (op : Operator) : (op.dxRefresh c g).eg = op.eg := rfl
@[simp] theorem Operator.dxRefresh_dx (c : Config) (g : Globals) (op : Operator) : (op.dxRefresh c g).dx = op.dx.update c g op.p := rfl
@[simp] theorem Operator.dxRefresh_ph (c : Config) (g : Globals) (op : Operator) : (op.dxRefresh c g).ph = op.ph := rfl
@[simp] theorem Operator.dxRefresh_prev0 (c : Config) (g : Globals) (op : Operator) : (op.dxRefresh c g).prev0 = op.prev0 := rfl
@[simp] theorem Operator.dxRefresh_prev1 (c : Config) (g : Globals) (op : Operator) : (op.dxRefresh c g).prev1 = op.prev1 := rfl

/-! the previous-output buffers -/

theorem Operator.setPrev_eq (c : Config) (op : Operator) (b : Bool) (y : ℚ) :
    op.setPrev c b y = { op with prev0 := if b then op.prev0 else c.rnd y, prev1 := if b then c.rnd y else op.prev1 } := by
  cases b <;> rfl
@[simp] theorem Operator.setPrev_prevAt (c : Config) (op : Operator) (b : Bool) (y : ℚ) : (op.setPrev c b y).prevAt b = c.rnd y := by
  cases b <;> rfl
@[simp] theorem Operator.setPrev_prevAt_not (c : Config) (op : Operator) (b : Bool) (y : ℚ) :
    (op.setPrev c b y).prevAt (!b) = op.prevAt (!b) := by
  cases b <;> rfl

end Sys2Proof.Machine
end

