-- ==== Sys2Proof/Laws/Ops.lean ====
section
/-! SUPPORT. What each shared operation can do, said once: the gate, the port, acting on one operator or on all, the
matrix, Int32 storage, the weighted sum, segment building, stage entry. -/

namespace Sys2Proof

theorem U31.toI32_toInt (x : U31) : x.toI32.toInt = x.toNat := by
  have h := x.isLt
  have hm : x.toNat % 2 ^ 32 = x.toNat := Nat.mod_eq_of_lt (by omega)
  unfold U31.toI32
  rw [BitVec.toInt_eq_toNat_of_lt] <;> rw [BitVec.toNat_setWidth, hm]
  omega

theorem fitsI32_iff (x : Int) : fitsI32 x = true ↔ -2147483648 ≤ x ∧ x ≤ 2147483647 := by
  simp [fitsI32]

theorem toInt_ofInt_of_fits (x : Int) (h : fitsI32 x = true) : (BitVec.ofInt 32 x).toInt = x := by
  rw [fitsI32_iff] at h
  rw [BitVec.toInt_ofInt]
  exact Int.bmod_eq_of_le (by norm_num; omega) (by norm_num; omega)

end Sys2Proof

namespace Sys2Proof.Machine

/-! ### the gate, the port -/

@[simp] theorem gated_inited {s : State} (f : State → State) (h : s.inited = true) : gated f s = f s := by
  simp [gated, h]

@[simp] theorem gated_not_inited {s : State} (f : State → State) (h : s.inited = false) : gated f s = s := by
  simp [gated, h]

theorem gated_cases (f : State → State) (s : State) :
    (s.inited = true ∧ gated f s = f s) ∨ (s.inited = false ∧ gated f s = s) := by
  cases h : s.inited <;> simp [h]

theorem fetch_nil {s : State} (h : s.port = []) : fetch s = none := by simp [fetch, h]

theorem fetch_cons {s : State} {w : Word} {rest : List Word} (h : s.port = w :: rest) :
    fetch s = some (w, { s with port := rest }) := by simp [fetch, h]

/-! ### one operator, all operators -/

theorem State.onOperator_of_none {s : State} {i : BitVec 8} {f : Operator → Operator × List Response}
    (h : s.ops[i.toNat]? = none) : s.onOperator i f = s := by
  simp [State.onOperator, h]

theorem State.onOperator_of_some {s : State} {i : BitVec 8} {f : Operator → Operator × List Response} {op : Operator}
    (h : s.ops[i.toNat]? = some op) :
    s.onOperator i f = { s with ops := s.ops.set i.toNat (f op).1, responses := s.responses ++ (f op).2 } := by
  simp [State.onOperator, State.respond, h]

/-- An operator that acts without responding: only its own entry changes. -/
theorem State.onOperator_silent {s : State} {i : BitVec 8} {f : Operator → Operator} {op : Operator}
    (h : s.ops[i.toNat]? = some op) :
    s.onOperator i (fun op => (f op, [])) = { s with ops := s.ops.set i.toNat (f op) } := by
  simp [State.onOperator, State.respond, h]

theorem State.onOperator_getElem? (s : State) (i : BitVec 8) (f : Operator → Operator × List Response) (a : Nat) :
    (s.onOperator i f).ops[a]? = if a = i.toNat then (s.ops[a]?).map (fun op => (f op).1) else s.ops[a]? := by
  unfold State.onOperator
  split
  · rename_i h
    split
    · subst_vars; simp [h]
    · rfl
  · rename_i op h
    simp only [State.respond, List.getElem?_set]
    by_cases ha : a = i.toNat
    · subst ha
      obtain ⟨hlt, heq⟩ := List.getElem?_eq_some_iff.mp h
      simp [hlt, heq]
    · simp [ha, Ne.symm ha]

@[simp] theorem State.onOperator_silent_responses (s : State) (i : BitVec 8) (f : Operator → Operator) :
    (s.onOperator i (fun op => (f op, []))).responses = s.responses := by
  unfold State.onOperator; split <;> simp

/-- What acting on one operator leaves: every operator of the result is an old one or the changed one. -/
theorem State.mem_onOperator {s : State} {i : BitVec 8} {f : Operator → Operator × List Response} {x : Operator}
    (h : x ∈ (s.onOperator i f).ops) : x ∈ s.ops ∨ ∃ op ∈ s.ops, x = (f op).1 := by
  obtain ⟨a, ha⟩ := List.mem_iff_getElem?.mp h
  rw [State.onOperator_getElem?] at ha
  split at ha
  · obtain ⟨op, ho, rfl⟩ := Option.map_eq_some_iff.mp ha
    exact .inr ⟨op, List.mem_of_getElem? ho, rfl⟩
  · exact .inl (List.mem_of_getElem? ha)

/-! ### Int32 storage -/

theorem toI32_toInt (c : Config) (site : Site) (x : Int) (h : fitsI32 x = true) : (toI32 c site x).toInt = x := by
  simp [toI32, h, toInt_ofInt_of_fits x h]

/-! ### the phase and the sums -/

/-- A loop that has ended is not changed by more turns. -/
theorem wrapDown_ended (r : ℚ → ℚ) (k : Nat) {p : ℚ} (h : p < 1) : wrapDown r k p = p := by
  cases k with
  | zero => rfl
  | succ k => rw [wrapDown, if_neg (not_le.mpr h)]

theorem wrapUp_ended (r : ℚ → ℚ) (k : Nat) {p : ℚ} (h : 0 ≤ p) : wrapUp r k p = p := by
  cases k with
  | zero => rfl
  | succ k => rw [wrapUp, if_neg (not_lt.mpr h)]

theorem wrapDown_turn (r : ℚ → ℚ) (k : Nat) {p : ℚ} (h : 1 ≤ p) : wrapDown r (k + 1) p = wrapDown r k (r (p - 1)) := by
  rw [wrapDown, if_pos h]

theorem wrapUp_turn (r : ℚ → ℚ) (k : Nat) {p : ℚ} (h : p < 0) : wrapUp r (k + 1) p = wrapUp r k (r (p + 1)) := by
  rw [wrapUp, if_pos h]

theorem wrapEnded_iff (r : ℚ → ℚ) (k : Nat) (p : ℚ) :
    wrapEnded r k p = true ↔ wrapDown r k p < 1 ∧ 0 ≤ wrapLoops r k p := by
  rw [wrapEnded, Bool.and_eq_true, decide_eq_true_iff, decide_eq_true_iff]

/-- A tick ends where the loops of every operator do (43_operator_mod_mix.md R135, R147). -/
theorem State.tickEnds_iff (s : State) :
    s.tickEnds = true ↔ ∀ (a : Nat) (op : Operator), s.ops[a]? = some op → s.loopsEnd a op = true := by
  simp only [State.tickEnds, List.all_eq_true, id, List.mem_mapIdx]
  constructor
  · intro h a op ha
    obtain ⟨hl, rfl⟩ := List.getElem?_eq_some_iff.mp ha
    exact h _ ⟨a, hl, rfl⟩
  · rintro h x ⟨a, hl, rfl⟩
    exact h a _ (List.getElem?_eq_getElem hl)

theorem foldl_add_eq_sum (l : List ℚ) (a : ℚ) : l.foldl (· + ·) a = a + l.sum := by
  induction l generalizing a with
  | nil => simp
  | cons x l ih => simp [ih, add_assoc]

/-- The weighted sum of 43_operator_mod_mix.md R138, R145 as a sum over indices; missing entries count as 0. -/
theorem weightedSum_eq_sum (row prevs : List ℚ) :
    weightedSum row prevs = ∑ j ∈ Finset.range prevs.length, row.getD j 0 * prevs.getD j 0 := by
  rw [weightedSum, foldl_add_eq_sum, zero_add]
  induction prevs generalizing row with
  | nil => simp
  | cons x l ih =>
    cases row with
    | nil => simp
    | cons r row => simp [Finset.sum_range_succ', ih, add_comm]

/-! ### segments and stages -/

theorem mkSeg_built (c : Config) (rate : Fin 100) (st en : ℚ) : SegBuilt c (mkSeg c rate st en) rate st en where
  startLevel := rfl
  endLevel := rfl
  asc := rfl
  dlDf := by simp [mkSeg, scaleRate, ascending]
  dur := rfl

theorem buildSteps_built (c : Config) (p : Params) : TableBuilt c p (buildSteps c p) where
  e1 := mkSeg_built ..
  e2 := mkSeg_built ..
  e3 := mkSeg_built ..
  esustain := rfl
  e4 := mkSeg_built ..

/-- The pair of a stage stands at selects `0x08 + s` and `0x0C + s` (42_eg_dexed.md R101). -/
theorem Params.read_dxRate (p : Params) (s : Fin 4) : p.read (0x08 + s.val) = some ((p.dxRate s).val : ℚ) := by
  fin_cases s <;> rfl
theorem Params.read_dxLevel (p : Params) (s : Fin 4) : p.read (0x0C + s.val) = some ((p.dxLevel s).val : ℚ) := by
  fin_cases s <;> rfl

/-- The value `a` of `dx_target` without its shifts (42_eg_dexed.md R102). -/
theorem dxTargetUnits_eq (c : Config) (g : Globals) (level : Fin 100) :
    dxTargetUnits c g level = max ((((scaleOutputLevel c level).val / 2 * 64 : Nat) : Int) + g.maxenv.toNat - 4256) 16 := by
  simp [dxTargetUnits, shl, asr]

/-- The target of a stage without its shifts (42_eg_dexed.md R102). -/
theorem dxTarget_eq (c : Config) (g : Globals) (p : Params) (s : Fin 4) :
    dxTarget c g p s = toI32 c .target
      (max ((((scaleOutputLevel c (p.dxLevel s)).val / 2 * 64 : Nat) : Int) + g.maxenv.toNat - 4256) 16 * 65536) := by
  rw [dxTarget, dxTargetUnits_eq]
  rfl

/-- Everything `dx_advance` can do (42_eg_dexed.md R103). -/
theorem Dx.enter_entered (c : Config) (g : Globals) (p : Params) (d : Dx) (s : Fin 5) :
    StageEntered c g p d (Dx.enter c g p d s) s.val := by
  unfold Dx.enter
  split
  · rename_i h
    exact {
      ix := rfl, level := rfl, down := rfl
      pair := fun _ => ⟨_, _, rateClass (p.dxRate ⟨s.val, h⟩), p.read_dxRate ⟨s.val, h⟩, p.read_dxLevel ⟨s.val, h⟩, rfl,
        dxTarget_eq .., rfl, U31.toI32_toInt _, rfl⟩
      last := fun h4 => by omega }
  · rename_i h
    exact {
      ix := rfl, level := rfl, down := rfl
      pair := fun h' => absurd h' h
      last := fun _ => ⟨rfl, rfl, rfl, rfl⟩ }

theorem stageSucc_val {s : Fin 5} (h : s.val ≤ 3) : (stageSucc s).val = s.val + 1 := by
  simp [stageSucc]
  omega

/-! ### the frame counter -/

theorem frameSucc_toNat (f : BitVec 32) : (frameSucc f).toNat = min (f.toNat + 1) (2 ^ 32 - 1) := by
  unfold frameSucc
  rw [BitVec.toNat_ofNat]
  exact Nat.mod_eq_of_lt (by omega)

/-! ### the engines: everything one update can do -/

/-- Everything `eg_advance` can do (41_eg_dx7.md R86). -/
theorem Eg.advance_cases (c : Config) (e : Eg) :
    (e.cur ≠ .e4 ∧ (e.step.get e.cur).done (frameSucc e.frame) e.moved = true ∧
      e.advance c = { e with cur := e.cur.next, frame := 0, level := c.rnd (e.step.get e.cur).endLevel }) ∨
    ((e.cur = .e4 ∨ (e.step.get e.cur).done (frameSucc e.frame) e.moved = false) ∧
      e.advance c = { e with frame := frameSucc e.frame, level := c.rnd e.moved }) := by
  by_cases h : e.cur ≠ .e4 ∧ (e.step.get e.cur).done (frameSucc e.frame) e.moved = true
  · exact .inl ⟨h.1, h.2, by simp [Eg.advance, h]⟩
  · refine .inr ⟨?_, by simp only [Eg.advance, if_neg h]⟩
    by_contra hc
    rw [not_or, Bool.not_eq_false] at hc
    exact h hc

@[simp] theorem Eg.advance_step (c : Config) (e : Eg) : (e.advance c).step = e.step := by
  rcases e.advance_cases c with ⟨-, -, h⟩ | ⟨-, h⟩ <;> rw [h]

/-- Everything `dx_sample` can do (42_eg_dexed.md R107). -/
theorem Dx.sample_cases (c : Config) (g : Globals) (p : Params) (d : Dx) (n : Nat) :
    (0 < d.staticcount.toInt ∧ d.sample c g p n = d.holdStep c g p n) ∨
    (d.staticcount.toInt ≤ 0 ∧ d.moving = true ∧ d.rising = true ∧ d.sample c g p n = d.riseStep c g p) ∨
    (d.staticcount.toInt ≤ 0 ∧ d.moving = true ∧ d.rising = false ∧ d.sample c g p n = d.fallStep c g p) ∨
    (d.staticcount.toInt ≤ 0 ∧ d.moving = false ∧ d.sample c g p n = d) := by
  unfold Dx.sample
  by_cases h : 0 < d.staticcount.toInt
  · simp [h]
  · cases hm : d.moving <;> cases hr : d.rising <;> simp [h, not_lt.mp h]

/-- What `Dx.land` enters (42_eg_dexed.md R107). -/
theorem Dx.land_entered (c : Config) (g : Globals) (p : Params) (d : Dx) :
    StageEntered c g p { d with level := d.target } (d.land c g p) (stageSucc d.ix).val :=
  Dx.enter_entered ..

/-- A rising update that `DX_RISE` raises gives what it gives (42_eg_dexed.md R108). -/
theorem Dx.risen_of_le {c : Config} {d : Dx} (h : d.level.toInt ≤ c.dxRise d.level d.inc) :
    d.risen c = c.dxRise d.level d.inc := max_eq_right h

/-- One that `DX_RISE` does not raise keeps its level (42_eg_dexed.md R113 c, d). -/
theorem Dx.risen_of_ge {c : Config} {d : Dx} (h : c.dxRise d.level d.inc ≤ d.level.toInt) : d.risen c = d.level.toInt :=
  max_eq_left h

/-- Storing the Int32 a level already is gives it back. -/
theorem toI32_self (c : Config) (site : Site) (x : I32) : toI32 c site x.toInt = x := by
  have hl := x.toInt_lt
  have hg := x.le_toInt
  have hf : fitsI32 x.toInt = true := by rw [fitsI32_iff]; omega
  exact BitVec.eq_of_toInt_eq (toI32_toInt c site _ hf)

/-- A rising stage that `DX_RISE` does not raise and whose target is not reached is stuck (42_eg_dexed.md R113 c,
60_exceptions.md R182). -/
theorem Dx.riseStep_stuck {c : Config} (g : Globals) (p : Params) {d : Dx} (h : c.dxRise d.level d.inc ≤ d.level.toInt)
    (ht : d.level.toInt < d.target.toInt) : d.riseStep c g p = d := by
  have he : toI32 c .rise (d.risen c) = d.level := by rw [Dx.risen_of_ge h, toI32_self]
  unfold Dx.riseStep
  dsimp only
  rw [he, if_neg (not_le.mpr ht), ite_self]

/-- Everything the rising update can do (42_eg_dexed.md R107, R113 c). -/
theorem Dx.riseStep_cases (c : Config) (g : Globals) (p : Params) (d : Dx) :
    (d.inc = 0 ∧ d.riseStep c g p = d) ∨
    (d.inc ≠ 0 ∧ d.target.toInt ≤ (toI32 c .rise (d.risen c)).toInt ∧ d.riseStep c g p = d.land c g p) ∨
    (d.inc ≠ 0 ∧ (toI32 c .rise (d.risen c)).toInt < d.target.toInt ∧
      d.riseStep c g p = { d with level := toI32 c .rise (d.risen c) }) := by
  by_cases hi : d.inc = 0
  · exact .inl ⟨hi, by simp [Dx.riseStep, hi]⟩
  · by_cases h : d.target.toInt ≤ (toI32 c .rise (d.risen c)).toInt
    · exact .inr (.inl ⟨hi, h, by simp only [Dx.riseStep, if_neg hi, if_pos h]⟩)
    · exact .inr (.inr ⟨hi, not_le.mp h, by simp only [Dx.riseStep, if_neg hi, if_neg h]⟩)

/-- Everything the falling update can do (42_eg_dexed.md R107). -/
theorem Dx.fallStep_cases (c : Config) (g : Globals) (p : Params) (d : Dx) :
    ((toI32 c .fall (d.level.toInt - d.inc.toInt)).toInt ≤ d.target.toInt ∧ d.fallStep c g p = d.land c g p) ∨
    (d.target.toInt < (toI32 c .fall (d.level.toInt - d.inc.toInt)).toInt ∧
      d.fallStep c g p = { d with level := toI32 c .fall (d.level.toInt - d.inc.toInt) }) := by
  by_cases h : (toI32 c .fall (d.level.toInt - d.inc.toInt)).toInt ≤ d.target.toInt
  · exact .inl ⟨h, by simp [Dx.fallStep, h]⟩
  · exact .inr ⟨not_le.mp h, by simp only [Dx.fallStep, if_neg h]⟩

theorem Dx.moving_iff (d : Dx) :
    d.moving = true ↔ d.ix.val < 3 ∨ (d.ix.val = 3 ∧ d.down = false) := by
  simp [Dx.moving]

theorem Dx.key_same (c : Config) (g : Globals) (p : Params) (d : Dx) : d.key c g p d.down = d := by
  simp [Dx.key]

theorem Dx.key_change (c : Config) (g : Globals) (p : Params) {d : Dx} {down : Bool} (h : d.down ≠ down) :
    d.key c g p down = Dx.enter c g p { d with down := down } (if down then 0 else 3) := by
  simp [Dx.key, h]

theorem Dx.update_held (c : Config) (g : Globals) (p : Params) {d : Dx} (h : d.down = true ∧ d.ix.val = 3) :
    d.update c g p = Dx.enter c g p d 2 := by
  simp [Dx.update, h]

theorem Dx.update_other (c : Config) (g : Globals) (p : Params) {d : Dx} (h : ¬ (d.down = true ∧ d.ix.val = 3)) :
    d.update c g p = d := by
  simp only [Dx.update, if_neg h]

/-! ### the registers and the tick, per operator -/

theorem clampQ_eq (v lo hi : ℚ) (h : lo ≤ hi) : clampQ v lo hi = max lo (min hi v) := by
  unfold clampQ
  split
  · rw [min_eq_right (by linarith), max_eq_left (by linarith)]
  · split
    · rw [min_eq_left (by linarith), max_eq_right h]
    · rw [min_eq_right (by linarith), max_eq_right (by linarith)]

theorem State.ticked_getElem? (s : State) (a : Nat) : s.ticked.ops[a]? = (s.ops[a]?).map (s.tickOperator a) := by
  simp

/-- Everything a tick can do (43_operator_mod_mix.md R147, 60_exceptions.md R182). -/
theorem sampleTick_cases (s : State) :
    (s.tickEnds = true ∧ sampleTick s = s.ticked) ∨ (s.tickEnds = false ∧ sampleTick s = { s with stuck := true }) := by
  cases h : s.tickEnds
  · exact .inr ⟨rfl, sampleTick_stuck h⟩
  · exact .inl ⟨rfl, sampleTick_ends h⟩

theorem State.onAll_getElem? (s : State) (f : Operator → Operator) (a : Nat) : (s.onAll f).ops[a]? = (s.ops[a]?).map f := by
  simp

/-! ### the meanings, each as the state it leaves -/

theorem exec_egset (k : BitVec 8) (s : State) :
    exec (.egset k) s = .next (gated (fun s => s.onOperator k (fun op => (op.egRefresh s.cfg, []))) s) := rfl
theorem exec_egon (k : BitVec 8) (s : State) :
    exec (.egon k) s = .next (gated (fun s => s.onOperator k (fun op => ({ op with eg := op.eg.noteOn s.cfg }, []))) s) := rfl
theorem exec_egoff (k : BitVec 8) (s : State) :
    exec (.egoff k) s = .next (gated (fun s => s.onOperator k (fun op => ({ op with eg := op.eg.noteOff }, []))) s) := rfl
theorem exec_egadv (k : BitVec 8) (s : State) :
    exec (.egadv k) s = .next (gated (fun s => s.onOperator k (fun op => (op.egAdvance s.cfg, [.real op.eg.level]))) s) := rfl
theorem exec_dxkey (k : BitVec 8) (down : Bool) (s : State) :
    exec (.dxkey k down) s = .next (gated (fun s => s.onOperator k (fun op => (op.dxKey s.cfg s.g down, []))) s) := rfl
theorem exec_dxupd (k : BitVec 8) (s : State) :
    exec (.dxupd k) s = .next (gated (fun s => s.onOperator k (fun op => (op.dxRefresh s.cfg s.g, []))) s) := rfl
theorem exec_dxsmp (k : BitVec 8) (n : BitVec 32) (s : State) :
    exec (.dxsmp k n) s = .next (gated (fun s => s.onOperator k (fun op =>
      (op.dxSample s.cfg s.g (dxFrames n), [.int (op.dxSample s.cfg s.g (dxFrames n)).dx.level]))) s) := rfl
theorem exec_init (sr : BitVec 32) (s : State) : exec (.init sr) s = .next (s.initialise sr) := rfl
theorem exec_noteon (s : State) :
    exec .noteon s = .next (gated (fun s => s.onAll (fun op => op.noteOn s.cfg s.variant s.g)) s) := rfl
theorem exec_noteoff (s : State) :
    exec .noteoff s = .next (gated (fun s => s.onAll (fun op => op.noteOff s.cfg s.variant s.g)) s) := rfl
theorem exec_tick (s : State) : exec .tick s = .next (gated sampleTick s) := rfl
theorem exec_render (n : BitVec 32) (s : State) :
    exec (.render n) s = .next (gated (fun s => sampleTicks n.toNat s.refreshAll) s) := rfl

/-! ### a running and a stuck block -/

theorem execAll_cons {s t : State} {i : Instr} (is : List Instr) (h : s.stuck = false) (he : exec i s = .next t) :
    execAll (i :: is) s = execAll is t := by
  rw [execAll, if_neg (by simp [h]), he]

theorem execAll_stuck {s : State} (is : List Instr) (h : s.stuck = true) : execAll is s = .next s := by
  cases is with
  | nil => rfl
  | cons i is => rw [execAll, if_pos h]

theorem step_stuck {s : State} (h : s.stuck = true) : step s = .next s := by rw [step, if_pos h]

/-! ### a number of sample ticks -/

theorem sampleTicks_add (m n : Nat) (s : State) : sampleTicks (m + n) s = sampleTicks n (sampleTicks m s) := by
  induction m generalizing s with
  | zero => simp [sampleTicks]
  | succ m ih => rw [Nat.succ_add, sampleTicks, ih, sampleTicks]

/-- A tick that never ends leaves the block stuck, and every further one leaves it so. -/
theorem sampleTicks_stuck {s : State} (h : s.tickEnds = false) (n : Nat) :
    sampleTicks (n + 1) s = { s with stuck := true } := by
  induction n generalizing s with
  | zero => exact sampleTick_stuck h
  | succ n ih => rw [sampleTicks, sampleTick_stuck h, ih (s := { s with stuck := true }) h]

@[simp] theorem sampleTicks_inited (n : Nat) (s : State) : (sampleTicks n s).inited = s.inited := by
  induction n generalizing s <;> simp_all [sampleTicks]
@[simp] theorem sampleTicks_g (n : Nat) (s : State) : (sampleTicks n s).g = s.g := by
  induction n generalizing s <;> simp_all [sampleTicks]
@[simp] theorem sampleTicks_variant (n : Nat) (s : State) : (sampleTicks n s).variant = s.variant := by
  induction n generalizing s <;> simp_all [sampleTicks]
@[simp] theorem sampleTicks_numeric (n : Nat) (s : State) : (sampleTicks n s).numeric = s.numeric := by
  induction n generalizing s <;> simp_all [sampleTicks]
@[simp] theorem sampleTicks_responses (n : Nat) (s : State) : (sampleTicks n s).responses = s.responses := by
  induction n generalizing s <;> simp_all [sampleTicks]
@[simp] theorem sampleTicks_port (n : Nat) (s : State) : (sampleTicks n s).port = s.port := by
  induction n generalizing s <;> simp_all [sampleTicks]
@[simp] theorem sampleTicks_nops (n : Nat) (s : State) : (sampleTicks n s).nops = s.nops := by
  induction n generalizing s <;> simp_all [sampleTicks]
@[simp] theorem sampleTicks_cfg (n : Nat) (s : State) : (sampleTicks n s).cfg = s.cfg := by
  simp [State.cfg]

end Sys2Proof.Machine
end

