-- ==== Sys2Proof/Laws/PerInstr.lean ====
section
/-! SUPPORT. A statement about every command as syntax, one lemma per constructor: the four fields of its canonical word are
the ones 30_encoding.md R53, R54 give it. -/

namespace Sys2Proof.Laws.EncodeFields

/-- The fields of the canonical word of `i` (30_encoding.md R50, R53, R54). -/
def Statement (i : Instr) : Prop :=
  opcOf (encode i) = opcode i ∧ opiOf (encode i) = opiField i ∧ selOf (encode i) = selField i ∧
    immOf (encode i) = immField i

theorem of_pack (i : Instr) : Statement i :=
  ⟨opcOf_packWord .., opiOf_packWord .., selOf_packWord .., immOf_packWord ..⟩

theorem nop : Statement .nop := of_pack _
theorem init (sr : BitVec 32) : Statement (.init sr) := of_pack _
theorem wrg (sel : BitVec 16) (v : BitVec 32) : Statement (.wrg sel v) := of_pack _
theorem wrp (i : BitVec 8) (sel : BitVec 16) (v : BitVec 32) : Statement (.wrp i sel v) := of_pack _
theorem wrm (i : BitVec 8) (j : BitVec 16) (w : BitVec 32) : Statement (.wrm i j w) := of_pack _
theorem noteon : Statement .noteon := of_pack _
theorem noteoff : Statement .noteoff := of_pack _
theorem tick : Statement .tick := of_pack _
theorem render (n : BitVec 32) : Statement (.render n) := of_pack _
theorem egset (i : BitVec 8) : Statement (.egset i) := of_pack _
theorem egon (i : BitVec 8) : Statement (.egon i) := of_pack _
theorem egoff (i : BitVec 8) : Statement (.egoff i) := of_pack _
theorem egadv (i : BitVec 8) : Statement (.egadv i) := of_pack _
theorem dxkey (i : BitVec 8) (down : Bool) : Statement (.dxkey i down) := of_pack _
theorem dxupd (i : BitVec 8) : Statement (.dxupd i) := of_pack _
theorem dxsmp (i : BitVec 8) (n : BitVec 32) : Statement (.dxsmp i n) := of_pack _

end Sys2Proof.Laws.EncodeFields
end

