-- ==== Sys2Proof/Tests/Slice0.lean ====
section
/-! SUPPORT. Tests. Words are those of 95_test_vectors.md V-E1 to V-E3; expected values are worked examples of the rules or of
95_test_vectors.md, as each docstring says. The last part shows, for every statement with hypotheses, operands and a state
that meet them. -/

namespace Sys2Proof.Tests

open Sys2Proof Sys2Proof.Machine

/-! ### well-formedness -/

theorem test_wf_wrp_select : Instr.wellFormed (.wrp 0 0x14 1) = true ∧ Instr.wellFormed (.wrp 0 0x15 1) = false := by decide
theorem test_wf_wrg_select : Instr.wellFormed (.wrg 3 1) = true ∧ Instr.wellFormed (.wrg 4 0) = false := by decide
theorem test_index_refused : ∀ i ∈ ([.wrp 2 0 0, .wrm 2 0 0, .wrm 0 2 0, .egset 2, .egon 2, .egoff 2, .egadv 2, .dxkey 2 true,
    .dxupd 2, .dxsmp 2 1] : List Instr), i.indexOk 2 = false ∧ i.indexOk 3 = true := by decide

/-! ### decoding (V-E1, V-E2, V-E3) -/

theorem test_decode_nop : decode 0x0000000000000000 = .command .nop := by decide
theorem test_decode_init : decode 0x010000000000BB80 = .command (.init 48000) := by decide
theorem test_decode_wrg : decode 0x0200000001B80000 = .command (.wrg 0 (440 * 65536)) ∧
    decode 0x0200000300000FE0 = .command (.wrg 3 4064) := by decide
theorem test_decode_wrp : decode 0x0301000F00000000 = .command (.wrp 1 0x0F 0) ∧
    decode 0x03000011FFFF0000 = .command (.wrp 0 0x11 0xFFFF0000) := by decide
theorem test_decode_wrm : decode 0x0400000100004000 = .command (.wrm 0 1 0x4000) := by decide
theorem test_decode_noteon : decode 0x0800000000000000 = .command .noteon ∧
    decode 0x08FFFFFFFFFFFFFF = .command .noteon := by decide
theorem test_decode_noteoff : decode 0x0900000000000000 = .command .noteoff := by decide
theorem test_decode_tick : decode 0x0A00000000000000 = .command .tick ∧
    decode 0x0A12345678ABCDEF = .command .tick := by decide
theorem test_decode_render : decode 0x0B00000000000040 = .command (.render 64) := by decide
theorem test_decode_egset : decode 0x1001000000000000 = .command (.egset 1) ∧
    decode 0x10007777DEADBEEF = .command (.egset 0) := by decide
theorem test_decode_egon : decode 0x1100000000000000 = .command (.egon 0) := by decide
theorem test_decode_egoff : decode 0x1200000000000000 = .command (.egoff 0) := by decide
theorem test_decode_egadv : decode 0x1300000000000000 = .command (.egadv 0) := by decide
theorem test_decode_dxkey : decode 0x1800000000000001 = .command (.dxkey 0 true) ∧
    decode 0x18000000FFFFFFFE = .command (.dxkey 0 false) ∧ decode 0x1800FFFF00000003 = .command (.dxkey 0 true) := by decide
theorem test_decode_dxupd : decode 0x1900000000000000 = .command (.dxupd 0) := by decide
theorem test_decode_dxsmp : decode 0x1A01000000000005 = .command (.dxsmp 1 5) := by decide
theorem test_decode_reserved_low : decode 0x0500000000000000 = .reserved .opcode 0x0500000000000000 ∧
    decode 0x0F00000000000000 = .reserved .opcode 0x0F00000000000000 := by decide
theorem test_decode_reserved_high : decode 0x1700000000000000 = .reserved .opcode 0x1700000000000000 ∧
    decode 0xFF00000000000000 = .reserved .opcode 0xFF00000000000000 := by decide
theorem test_decode_reserved_param : decode 0x0300001500000001 = .reserved .paramSelect 0x0300001500000001 := by decide
theorem test_decode_reserved_global : decode 0x0200000400000000 = .reserved .globalSelect 0x0200000400000000 := by decide
theorem test_decode_reserved_wrp : decodeFor 2 0x0305001200010000 = .reserved .index 0x0305001200010000 := by decide
theorem test_decode_reserved_wrm : decodeFor 2 0x0400000200010000 = .reserved .index 0x0400000200010000 := by decide
theorem test_decode_reserved_egadv : decodeFor 2 0x1302000000000000 = .reserved .index 0x1302000000000000 := by decide
theorem test_encode_is_canonical : encode (.wrp 1 0x11 0xFFFF8000) = 0x03010011FFFF8000 ∧
    encode (.dxkey 0 true) = 0x1800000000000001 ∧ encode (.render 64) = 0x0B00000000000040 := by decide
theorem test_decode_table_word : decodeTableWord 64 0x1A01000000000005 = some (.dxsmp 1 5) ∧
    decodeTableWord 64 0x0500000000000000 = none := by decide

/-! ### one command -/

/-- The state the tests start from: `INIT sr` under CFG_T. -/
def start (v : Variant) (sr : BitVec 32) : State := (State.powerOn v 2 .cfgT).initialise sr

/-- The state with operator 0 changed. -/
def State.with0 (s : State) (f : Operator → Operator) : State := { s with ops := s.ops.modify 0 f }

/-- The command answers a next state that passes the test. -/
def after (i : Instr) (s : State) (p : State → Bool) : Bool :=
  match exec i s with
  | .next t => p t
  | .fault _ => false
  | .refused _ => false

/-- A test of operator 0 of a state. -/
def op0 (p : Operator → Bool) (s : State) : Bool := (s.ops[0]?).any p

/-- Operator 0 with the registers, table and step of 41_eg_dx7.md R82's example. -/
def r82 (cur : EgStep) (level : ℚ) (op : Operator) : Operator :=
  Operator.egSet Config.cfgT { op with
    p := { op.p with egR1 := 99, egR2 := 99, egR3 := 99, egR4 := 99, egL1 := 99, egL2 := 99 }
    eg := { op.eg with cur := cur, level := level } }

/-- The state of 42_eg_dexed.md R106's example before its `DXKEY`: `MAXENV = 4064`, `DX_R0 = DX_L0 = 99`. -/
def r106 (f : Operator → Operator) : State :=
  { State.with0 (start .fm 44100) (fun op => f { op with p := { op.p with dxR0 := 99, dxL0 := 99 } }) with
    g := { (start .fm 44100).g with maxenv := 4064 } }

/-- 44_voice_commands.md R162. -/
theorem test_nop : after .nop (start .fm 48000) (fun t => t == start .fm 48000) = true := by decide +kernel
/-- 44_voice_commands.md R161: 48000 Hz gives 15414067 under the candidate; 0 is stored as 1. -/
theorem test_init : after (.init 48000) State.reset (fun t => t.inited && t.g.sr == 48000) = true ∧
    after (.init 48000) (State.powerOn .fm 2 .cfgT) (fun t => t.g.srmult == 15414067) = true ∧
    after (.init 0) State.reset (fun t => t.g.sr == 1) = true := by decide +kernel
/-- 44_voice_commands.md R164: `WRP 0, EG_R1, 120` stores 99 and sets `EGDIRTY[0]`. -/
theorem test_wrp_clamps : after (.wrp 0 0 120) (start .fm 48000) (op0 fun op => op.p.egR1 == 99 && op.egDirty && !op.dxDirty) =
    true := by decide +kernel
/-- 44_voice_commands.md R164: `WRP 0, F0, 0` stores 1; V-E4: a `DETUNE` of -32768 stores -1. -/
theorem test_wrp_reals : after (.wrp 0 0x14 0) (start .fm 48000) (op0 fun op => op.p.f0 == 1 && !op.egDirty) = true ∧
    after (.wrp 0 0x11 0x80000000) (start .fm 48000) (op0 fun op => op.p.detune == -1) = true := by decide +kernel
/-- 44_voice_commands.md R165: `WRG FBAMT, 9` stores 7; `MAXENV` sets `DXDIRTY`. -/
theorem test_wrg : after (.wrg 2 9) (start .sw 44100) (fun t => t.g.fbamt == 7) = true ∧
    after (.wrg 3 5000) (start .sw 44100) (fun t => t.g.maxenv == 4064 && op0 (fun op => op.dxDirty) t) = true := by
  decide +kernel
/-- 44_voice_commands.md R166: `WRM 0, 1, 1/4`. -/
theorem test_wrm : after (.wrm 0 1 0x4000) (start .fm 48000) (fun t => t.weight 0 1 == 1 / 4 && t.weight 1 0 == 0) = true := by
  decide +kernel
/-- 44_voice_commands.md R167: `NOTEON` restarts at `E1` from level 0 and zeroes the phase. -/
theorem test_noteon : after .noteon (State.with0 (start .fm 48000) fun op => { r82 .e2 (1 / 2) op with ph := 1 / 4 })
    (op0 fun op => op.eg.cur == .e1 && op.eg.level == 0 && op.ph == 0) = true := by decide +kernel
/-- 44_voice_commands.md R168: `NOTEOFF` keeps level and phase. -/
theorem test_noteoff : after .noteoff (State.with0 (start .fm 48000) fun op => { r82 .e2 (1 / 2) op with ph := 1 / 4 })
    (op0 fun op => op.eg.cur == .e4 && op.eg.level == 1 / 2 && op.ph == 1 / 4) = true := by decide +kernel
/-- 43_operator_mod_mix.md R134, R137: ratio 1, 12000 Hz at 48000 Hz, level 1/2, sine: the first sample is at phase 1/4. -/
theorem test_tick : after .tick (State.with0 (start .fm 48000) fun op =>
      { r82 .e4 (1 / 2) op with p := { (r82 .e4 0 op).p with ratio := 1, f0 := 12000, olev := 1 } })
    (fun t => op0 (fun op => op.ph == 1 / 4) t && t.prevOut 0 == 1 / 2 && t.pp && t.samples == [⟨1 / 2, 1073741824⟩]) = true := by
  decide +kernel
/-- 44_voice_commands.md R169: `RENDER 0` refreshes and emits nothing; `RENDER 2` emits two samples. -/
theorem test_render : after (.render 0) (State.with0 (start .fm 48000) fun op =>
      { op with p := { op.p with egL1 := 99 }, egDirty := true })
    (fun t => t.samples.isEmpty && op0 (fun op => op.eg.step.e1.endLevel == 1 && !op.egDirty) t) = true ∧
    after (.render 2) (start .fm 48000) (fun t => t.samples == [⟨0, 0⟩, ⟨0, 0⟩] && !t.pp) = true := by decide +kernel
/-- 41_eg_dx7.md R82's example. -/
theorem test_egset : after (.egset 0) (State.with0 (start .fm 48000) (r82 .e2 (1 / 2))) (op0 fun op =>
    op.eg.step.e1.dlDf == 32 / 7 && op.eg.step.e1.asc && op.eg.step.e2.dlDf == 7 / 32 && op.eg.step.e3.endLevel == 0 &&
      op.eg.step.e4.dlDf == 7 / 32 && op.eg.cur == .e2 && op.eg.level == 1 / 2) = true := by decide +kernel
/-- 41_eg_dx7.md R84's example: in `E4` with level 1/2, `EGON 0`. -/
theorem test_egon : after (.egon 0) (State.with0 (start .fm 48000) (r82 .e4 (1 / 2)))
    (op0 fun op => op.eg.cur == .e1 && op.eg.frame == 0 && op.eg.level == 0) = true := by decide +kernel
/-- 41_eg_dx7.md R85's example: in `E2` with level 0.7, `EGOFF 0`. -/
theorem test_egoff : after (.egoff 0) (State.with0 (start .fm 48000) (r82 .e2 (7 / 10)))
    (op0 fun op => op.eg.cur == .e4 && op.eg.frame == 0 && op.eg.level == 7 / 10) = true := by decide +kernel
/-- 41_eg_dx7.md R86's example: the first `EGADV 0` after `EGON 0` responds 0 and leaves `E2` at level 1. -/
theorem test_egadv_advances : after (.egadv 0) (State.with0 (start .fm 48000) (r82 .e1 0)) (fun t =>
    t.responses == [.real 0] && op0 (fun op => op.eg.cur == .e2 && op.eg.level == 1 && op.eg.frame == 0) t) = true := by
  decide +kernel
/-- 41_eg_dx7.md R89: in `E4` the level is multiplied, from the clamp 1/10000 on. -/
theorem test_egadv_release : after (.egadv 0) (State.with0 (start .fm 48000) (r82 .e4 0))
    (op0 fun op => op.eg.cur == .e4 && op.eg.level == 7 / 320000 && op.eg.frame == 1) = true := by decide +kernel
/-- 42_eg_dexed.md R106's example. -/
theorem test_dxkey : after (.dxkey 0 true) (r106 id) (op0 fun op =>
    op.dx == { ix := 0, level := 0, target := 251658240, rising := true, inc := 917504, staticcount := 0, down := true }) =
    true := by decide +kernel
/-- 42_eg_dexed.md R110: in the held sustain `DXUPD` re-enters stage 2; here its target is the floor 1048576, so it falls. -/
theorem test_dxupd : after (.dxupd 0) (r106 fun op =>
      { op with dx := { op.dx with ix := 3, down := true, level := 150994944 }, dxDirty := true })
    (op0 fun op => op.dx.ix == 2 && op.dx.target == 1048576 && !op.dx.rising && !op.dxDirty) = true := by decide +kernel
/-- 42_eg_dexed.md R107's example: the level rises from 0 to 121634816; R113 c, 60_exceptions.md R182: above `17 << 24` it stays. -/
theorem test_dxsmp_rises : after (.dxsmp 0 1) (r106 fun op => op.dxKey Config.cfgT { (start .fm 44100).g with maxenv := 4064 } true)
    (fun t => t.responses == [.int 121634816] && op0 (fun op => op.dx.level == 121634816 && op.dx.ix == 0) t) = true ∧
    after (.dxsmp 0 1) (r106 fun op =>
      { op with dx := { op.dx with ix := 0, level := 301989888, target := 318767104, rising := true, inc := 917504 } })
    (fun t => t.responses == [.int 301989888] && op0 (fun op => op.dx.level == 301989888 && op.dx.ix == 0) t) = true := by
  decide +kernel
/-- 42_eg_dexed.md R107: a hold that `n` passes runs out, and the next stage is entered at the same level. -/
theorem test_dxsmp_hold : after (.dxsmp 0 5) (r106 fun op => { op with dx := { op.dx with ix := 3, staticcount := 4 } })
    (fun t => t.responses == [.int 0] && op0 (fun op => op.dx.ix == 4 && op.dx.staticcount == 0) t) = true := by decide +kernel
/-- A step takes the command from the port; a reserved word acts as `NOP`; with no command nothing happens; a stuck
block takes none. -/
theorem test_step : step { start .fm 48000 with port := [0x1100000000000000, 0] } =
      exec (.egon 0) { start .fm 48000 with port := [0] } ∧
    step { State.reset with port := [0x0500000000000000] } = .next State.reset ∧ step State.reset = .next State.reset ∧
    step { start .fm 48000 with port := [0x1100000000000000], stuck := true } =
      .next { start .fm 48000 with port := [0x1100000000000000], stuck := true } := ⟨rfl, rfl, rfl, rfl⟩

/-- 43_operator_mod_mix.md R135's examples. -/
theorem test_wrap01 : wrap01 Config.cfgT (9 / 4) = 1 / 4 ∧ wrap01 Config.cfgT (-1 / 4) = 3 / 4 ∧ wrap01 Config.cfgT 1 = 0 ∧
    wrapEnds Config.cfgT (-9 / 4) = true := by decide +kernel
/-- Rounding to even integers, ties to the multiple of 4: binary32 between 2^24 and 2^25. -/
def coarse (x : ℚ) : ℚ :=
  let h : Int := (x / 2).floor
  if x / 2 - h < 1 / 2 then ((2 * h : Int) : ℚ)
  else if 1 / 2 < x / 2 - h then ((2 * h + 2 : Int) : ℚ)
  else ((2 * (h + h % 2) : Int) : ℚ)
/-- 43_operator_mod_mix.md R135: at 2^24 + 4 the binary32 loop makes no progress; at 2^24 + 2 it does. -/
theorem test_wrap01_stalls : coarse (16777220 - 1) = 16777220 ∧ wrapEnded coarse 9 16777220 = false ∧
    wrapDown coarse 1 16777218 = 16777216 := by decide +kernel
/-- 43_operator_mod_mix.md R141's example: `fb0 = 1/2`, `fb1 = 1/4`, `FBAMT = 7`. -/
theorem test_fbterm : fbterm Config.cfgT { (start .sw 44100).g with fbamt := 7 } (1 / 2) (1 / 4) = 3 / 1024 := by decide +kernel
/-- 30_encoding.md R66: a `DETUNE` operand of -1/2 is 0xFFFF8000; a third cannot be represented and is rejected. -/
theorem test_assembler : asmSq16 (-1 / 2) = some 0xFFFF8000 ∧ asmUq16 (1 / 3) = none := by decide +kernel
/-- 44_voice_commands.md R171: `noteOn` is a pitch write, then `NOTEON`; a patch load writes registers, rows and globals. -/
theorem test_entry : (Entry.noteOn (440 * 65536)).commands.map encode = [0x0200000001B80000, 0x0800000000000000] ∧
    (Entry.loadPatch ⟨[[99]], [[0x4000]], 1, 7, 4064⟩).commands.map encode = [0x0300000000000063, 0x0400000000004000,
      0x0200000100000001, 0x0200000200000007, 0x0200000300000FE0] := by decide +kernel

/-! ### witnesses: operands and states that meet the hypotheses of the statements -/

/-- A gated-on state of the variant, two operators, CFG_T. -/
def on (v : Variant) : State := { State.powerOn v 2 .cfgT with inited := true }

/-- The operator of `on`, and one with another Dexed-style engine. -/
def op : Operator := Operator.powerOn 2
def opDx (d : Dx) : Operator := { op with dx := d }
def opEg (e : Eg) : Operator := { op with eg := e }
def one (o : Operator) : State := { on .fm with ops := [o] }

/-- A segment table whose release halves the level. -/
def halving : Eg := { Eg.powerOn with step := { Eg.powerOn.step with e4 := { Seg.powerOn with dlDf := 1 / 2 } } }

theorem seg_powerOn_legal : Seg.powerOn.Legal where
  dur := by norm_num [Seg.powerOn]
  dlDf := by norm_num [Seg.powerOn]
  startLevel := by norm_num [Seg.powerOn]
  endLevel := by norm_num [Seg.powerOn]
  asc := by norm_num [Seg.powerOn]
  flat _ := by norm_num [Seg.powerOn]

theorem steps_powerOn_legal : Eg.powerOn.step.Legal where
  segs k := by cases k <;> exact seg_powerOn_legal
  attack := rfl
  decay := rfl
  decay2 := rfl
  sustain := ⟨rfl, rfl⟩
  hold := ⟨rfl, rfl⟩
  release := rfl
  silence := rfl

theorem op_legal (v : Variant) : op.Legal Config.cfgT v where
  params := by
    constructor <;> norm_num [op, Operator.powerOn, Params.powerOn, Config.cfgT]
  row := by simp [op, Operator.powerOn]
  eg := ⟨steps_powerOn_legal, by norm_num [op, Operator.powerOn, Eg.powerOn]⟩
  dx := ⟨by simp [op, Operator.powerOn, Dx.powerOn], by simp [op, Operator.powerOn, Dx.powerOn], by simp [op, Operator.powerOn, Dx.powerOn]⟩
  ph := by norm_num [op, Operator.powerOn]
  prev _ := by norm_num [op, Operator.powerOn]

theorem mem_on {v : Variant} {x : Operator} (h : x ∈ (on v).ops) : x = op := (List.mem_replicate.mp h).2

theorem on_shape (v : Variant) : (on v).Shape where
  nops_pos := by cases v <;> decide
  nops_le := by cases v <;> decide
  sw_two _ := by cases v <;> decide
  rows x h := by rw [mem_on h]; rfl

theorem on_legal (v : Variant) : (on v).Legal where
  running := rfl
  shape := on_shape v
  globals := by cases v <;> exact ⟨by decide, by decide, by decide⟩
  operators x h := by rw [mem_on h]; exact op_legal v

theorem dx_powerOn_bounded : Dx.powerOn.Bounded 251658240 where
  level := by decide
  target := by decide
  floor := by decide
  inc := by decide
  staticcount := by decide

theorem on_dxBounded (v : Variant) : (on v).DxBounded where
  maxenv := by cases v <;> decide
  srmult := by cases v <;> decide
  engines x h := by rw [mem_on h]; exact dx_powerOn_bounded

/-- CFG_T meets the bounds of 42_eg_dexed.md R113. -/
theorem cfgT_withinInt32 : Config.cfgT.WithinInt32 where
  maxEnvMax := by decide
  dxInc q m := by
    change (candDxInc q m).toNat ≤ _
    have hm := m.toInt_lt
    have hq : (4 + (q.val &&& 3)) <<< (2 + (q.val >>> 2)) ≤ 917504 := by revert q; decide
    rw [candDxInc, BitVec.toNat_ofNat]
    refine (Nat.mod_le _ _).trans ?_
    generalize (4 + (q.val &&& 3)) <<< (2 + (q.val >>> 2)) = a at *
    have : (a : Int) * m.toInt ≤ 917504 * 2147483648 := by
      rcases le_total 0 m.toInt with h | h
      · apply mul_le_mul <;> omega
      · nlinarith
    unfold asr
    omega
  dxStatic r := by revert r; decide
  dxRise x inc h0 h1 h2 h3 := by
    have key : ∀ y : Int, 112459776 ≤ y → y ≤ 251658240 → y + asr (shl 17 24 - y) 24 * inc.toInt ≤ 2147483647 := by
      intro y a b
      have f : asr (shl 17 24 - y) 24 ≤ 10 := by unfold asr shl; omega
      have : asr (shl 17 24 - y) 24 * inc.toInt ≤ 10 * 117440512 := mul_le_mul f h3 (by omega) (by norm_num)
      omega
    change candDxRise x inc ≤ _
    unfold candDxRise
    by_cases h : x.toInt < shl 1716 16
    · simp only [h, if_true]; exact key _ (by simp [shl]) (by simp [shl])
    · simp only [h, if_false]; simp only [shl] at h; exact key _ (by omega) h1

theorem witness_DecodeOfEncodeIsTheCommand : Instr.wellFormed (.wrp 255 0x14 0xFFFFFFFF) = true ∧
    Instr.wellFormed (.wrg 3 1) = true ∧ Instr.wellFormed .tick = true := by decide
theorem witness_OpcodeSelects : (0x0003 : BitVec 16).toNat ≤ 0x0003 ∧ (0x0014 : BitVec 16).toNat ≤ 0x0014 := by decide
theorem witness_ReservedWords_opcode : State.reset.stuck = false ∧ (opcOf 0x0500000000000000).toNat = 0x05 ∧
    (opcOf 0x0700000000000000).toNat = 0x07 ∧ (opcOf 0x0C00000000000000).toNat = 0x0C ∧ (opcOf 0x1700000000000000).toNat = 0x17 ∧
    (opcOf 0x1B00000000000000).toNat = 0x1B ∧ (opcOf 0xFF00000000000000).toNat = 0xFF := by decide
theorem witness_ReservedWords_select : opcOf 0x0300001500000001 = 0x03 ∧ 0x0014 < (selOf 0x0300001500000001).toNat ∧
    opcOf 0x0200000400000000 = 0x02 ∧ 0x0003 < (selOf 0x0200000400000000).toNat := by decide
theorem witness_ReservedWords_index : decode 0x1302000000000000 = .command (.egadv 2) ∧
    Instr.indexOk State.reset.nops (.egadv 2) = false := by decide
theorem witness_HostBytes : (0 : Nat) < 8 ∧ 7 < 8 := by decide
theorem witness_StepRuns : (on .fm).stuck = false ∧ ({ on .fm with stuck := true } : State).stuck = true ∧
    ({ on .fm with port := [0x1100000000000000, 0] } : State).port = 0x1100000000000000 :: [0] ∧
    decode 0x1100000000000000 = .command (.egon 0) ∧ (on .fm).port = [] := ⟨rfl, rfl, rfl, by decide, rfl⟩
theorem witness_IssuedCommands : (on .fm).port = [] ∧ (∀ i ∈ ([.noteon, .egadv 0] : List Instr), i.wellFormed = true) ∧
    ∃ t, execAll [.noteon, .egadv 0] (on .fm) = .next t ∧ t.stuck = false := ⟨rfl, by decide, _, rfl, rfl⟩
theorem witness_CommandsBeforeInit : State.reset.inited = false ∧ (∀ sr, Instr.tick ≠ .init sr) ∧ (on .fm).inited = true ∧
    ∃ t, exec .tick (on .fm) = .next t := ⟨rfl, nofun, rfl, _, rfl⟩
theorem witness_IndexOutOfRange : State.reset.nops ≤ (2 : BitVec 8).toNat ∧ State.reset.nops ≤ (2 : BitVec 16).toNat := by decide
theorem witness_NoStepChanges : ∃ t, step (on .fm) = .next t := ⟨_, rfl⟩
theorem witness_WhatEachCommandAppends : (on .fm).inited = true ∧ (1 : BitVec 8).toNat < (on .fm).nops ∧
    State.reset.inited = false ∧ Instr.indexOk (on .fm).nops (.egadv 2) = false := by decide
theorem witness_OnlyInitWrites : (∃ t, exec .tick (on .sw) = .next t) ∧ ∀ sr, Instr.tick ≠ .init sr := ⟨⟨_, rfl⟩, nofun⟩
theorem witness_PowerOnWaits : ∀ sr, Instr.noteon ≠ .init sr := nofun
theorem witness_InitForgets : (one op).variant = (one (opEg halving)).variant ∧ (one op).numeric = (one (opEg halving)).numeric ∧
    (one op).nops = (one (opEg halving)).nops ∧ (one op).responses = (one (opEg halving)).responses ∧
    (one op).samples = (one (opEg halving)).samples ∧ (one op).port = (one (opEg halving)).port ∧
    (one op).stuck = (one (opEg halving)).stuck ∧ (one op).stuck = false ∧
    one op ≠ one (opEg halving) := ⟨rfl, rfl, rfl, rfl, rfl, rfl, rfl, rfl, by decide +kernel⟩
theorem witness_InitSetsEveryElement : (on .fm).numeric = .cfgT ∧ (on .fm).stuck = false := ⟨rfl, rfl⟩
theorem witness_Wrp : (on .fm).inited = true ∧ (on .fm).ops[(1 : BitVec 8).toNat]? = some op ∧
    (0x0014 : BitVec 16).toNat ≤ 0x0014 ∧ 0x0014 < (0x0015 : BitVec 16).toNat := ⟨rfl, rfl, by decide, by decide⟩
theorem witness_Wrg : (on .fm).inited = true ∧ 0x0003 < (0x0004 : BitVec 16).toNat := ⟨rfl, by decide⟩
theorem witness_Wrm : (on .fm).inited = true ∧ (on .fm).Shape ∧ (1 : BitVec 8).toNat < (on .fm).nops ∧
    (0 : BitVec 16).toNat < (on .fm).nops ∧ (on .fm).nops ≤ (2 : BitVec 16).toNat :=
  ⟨rfl, on_shape .fm, by decide, by decide, by decide⟩
theorem witness_HigherRates : (98 : Fin 100) < 99 ∧ ¬ (1 : ℚ) < 1 ∧ (0 : ℚ) < 1 := by decide +kernel
theorem witness_OutputLevel : (19 : Fin 100).val < 20 ∧ 20 ≤ (20 : Fin 100).val := by decide
theorem witness_Egset : (on .fm).inited = true ∧ (on .fm).ops[(1 : BitVec 8).toNat]? = some op := ⟨rfl, rfl⟩
theorem witness_Egon : (on .sw).inited = true ∧ (on .sw).ops[(0 : BitVec 8).toNat]? = some op := ⟨rfl, rfl⟩
theorem witness_Egadv_fires : (one (opEg { Eg.powerOn with cur := .e2 })).inited = true ∧
    (one (opEg { Eg.powerOn with cur := .e2 })).ops[(0 : BitVec 8).toNat]? = some (opEg { Eg.powerOn with cur := .e2 }) ∧
    (opEg { Eg.powerOn with cur := .e2 }).eg.cur ≠ .e4 ∧
    (opEg { Eg.powerOn with cur := .e2 }).eg.step.e2.dur ≤ ((min ((0 : BitVec 32).toNat + 1) (2 ^ 32 - 1) : Nat) : ℚ) :=
  ⟨rfl, rfl, by decide, by norm_num [opEg, Eg.powerOn, Seg.powerOn]⟩
theorem witness_Egadv_rests : (on .fm).inited = true ∧ (on .fm).ops[(0 : BitVec 8).toNat]? = some op ∧ op.eg.cur = .e4 :=
  ⟨rfl, rfl, rfl⟩
theorem witness_ReleaseIsLeft : (∃ t, exec (.egon 0) (one op) = .next t ∧
    t.ops[0]? = some (opEg { Eg.powerOn with cur := .e1 }) ∧ (one op).ops[0]? = some op) ∧ op.eg.cur = .e4 ∧
    (opEg { Eg.powerOn with cur := .e1 }).eg.cur ≠ .e4 := ⟨⟨_, rfl, rfl, rfl⟩, rfl, by decide⟩
theorem witness_ReleaseEnds_low : (one (opEg halving)).stuck = false ∧ (one (opEg halving)).inited = true ∧
    (one (opEg halving)).ops[(0 : BitVec 8).toNat]? = some (opEg halving) ∧ (one op).cfg.Exact ∧ halving.cur = .e4 ∧
    0 < halving.step.e4.dlDf ∧ halving.step.e4.dlDf < 1 ∧ halving.level ≤ 1 / 10000 :=
  ⟨rfl, rfl, rfl, fun _ => rfl, rfl, by norm_num [halving], by norm_num [halving], by norm_num [halving, Eg.powerOn]⟩
theorem witness_ReleaseEnds_high : (one (opEg { halving with level := 1 })).inited = true ∧
    (one (opEg { halving with level := 1 })).ops[(0 : BitVec 8).toNat]? = some (opEg { halving with level := 1 }) ∧
    ({ halving with level := 1 } : Eg).cur = .e4 ∧ 0 < halving.step.e4.dlDf ∧ halving.step.e4.dlDf < 1 ∧ (1 / 10000 : ℚ) < 1 :=
  ⟨rfl, rfl, rfl, by norm_num [halving], by norm_num [halving], by norm_num⟩
theorem witness_Sustain : (one op).stuck = false ∧ (one (opEg { Eg.powerOn with cur := .esustain })).inited = true ∧
    (one (opEg { Eg.powerOn with cur := .esustain })).ops[(0 : BitVec 8).toNat]? =
      some (opEg { Eg.powerOn with cur := .esustain }) ∧
    (one op).cfg.Exact ∧ ({ Eg.powerOn with cur := .esustain } : Eg).step.Legal :=
  ⟨rfl, rfl, rfl, fun _ => rfl, steps_powerOn_legal⟩
theorem witness_FirstLevel : (on .fm).stuck = false ∧ (on .fm).inited = true ∧ (1 : BitVec 8).toNat < (on .fm).nops ∧ (on .fm).cfg.Exact :=
  ⟨rfl, rfl, by decide, fun _ => rfl⟩
theorem witness_StageTarget : Params.read { Params.powerOn with dxL3 := 99 } (0x0C + 3) = some ((99 : Fin 100).val : ℚ) ∧
    max (((((scaleOutputLevel Config.cfgT 99).val / 2) * 64 : Nat) : Int) +
      ({ (on .fm).g with maxenv := 4064 } : Globals).maxenv.toNat - 4256) 16 * 65536 ≤ 2147483647 := ⟨rfl, by decide⟩
theorem witness_HoldCount_table : (∀ h : (76 : Fin 100).val < 77, 441 = (Config.cfgT.dxStatic ⟨(76 : Fin 100).val, h⟩).toNat) ∧
    (77 ≤ (76 : Fin 100).val → 441 = 20 * (99 - (76 : Fin 100).val)) ∧ 0 ≤ (16777216 : I32).toInt ∧
    ((441 : Nat) : Int) * (16777216 : I32).toInt / 16777216 ≤ 2147483647 := by decide
theorem witness_HoldCount_line : (∀ h : (77 : Fin 100).val < 77, 440 = (Config.cfgT.dxStatic ⟨(77 : Fin 100).val, h⟩).toNat) ∧
    (77 ≤ (77 : Fin 100).val → 440 = 20 * (99 - (77 : Fin 100).val)) ∧
    ((440 : Nat) : Int) * (16777216 : I32).toInt / 16777216 ≤ 2147483647 := by decide
theorem witness_Dxkey : (on .fm).inited = true ∧ (on .fm).ops[(0 : BitVec 8).toNat]? = some op ∧ op.dx.down = false ∧
    op.dx.down ≠ true := ⟨rfl, rfl, rfl, by decide⟩
theorem witness_Dxupd : (one (opDx { Dx.powerOn with ix := 3, down := true })).inited = true ∧
    (one (opDx { Dx.powerOn with ix := 3, down := true })).ops[(0 : BitVec 8).toNat]? =
      some (opDx { Dx.powerOn with ix := 3, down := true }) ∧
    (opDx { Dx.powerOn with ix := 3, down := true }).dx.ix.val = 3 ∧
    (on .fm).ops[(0 : BitVec 8).toNat]? = some op ∧ ¬ (op.dx.down = true ∧ op.dx.ix.val = 3) :=
  ⟨rfl, rfl, rfl, rfl, by decide⟩
theorem witness_DxsmpHold : (one (opDx { Dx.powerOn with ix := 3, staticcount := 4 })).inited = true ∧
    (one (opDx { Dx.powerOn with ix := 3, staticcount := 4 })).ops[(0 : BitVec 8).toNat]? =
      some (opDx { Dx.powerOn with ix := 3, staticcount := 4 }) ∧ 0 < (4 : I32).toInt ∧ (3 : Fin 5).val ≤ 3 ∧
    (4 : I32).toInt - min (4 : BitVec 32).toNat (2 ^ 31 - 1) ≤ 0 ∧ 0 < (4 : I32).toInt - min (3 : BitVec 32).toNat (2 ^ 31 - 1) :=
  ⟨rfl, rfl, by decide, by decide, by decide, by decide⟩
/-- A rising engine at level 0 and increment 1, whose update reaches 112459786 exactly. -/
def rising (target : I32) : Dx := { Dx.powerOn with ix := 3, rising := true, inc := 1, target := target }
theorem witness_DxsmpRises : (one (opDx (rising 112459786))).inited = true ∧
    (one (opDx (rising 112459786))).ops[(0 : BitVec 8).toNat]? = some (opDx (rising 112459786)) ∧
    (rising 0).staticcount.toInt ≤ 0 ∧ (rising 0).ix.val = 3 ∧ (rising 0).down = false ∧ (rising 0).rising = true ∧
    (rising 0).inc ≠ 0 ∧ (112459786 : I32).toInt ≤ (one op).cfg.dxRise 0 1 ∧
    (one op).cfg.dxRise 0 1 < (112459787 : I32).toInt ∧
    max (rising 0).level.toInt ((one op).cfg.dxRise 0 1) ≤ 2147483647 ∧
    (one op).cfg.dxRise 301989888 1 ≤ (301989888 : I32).toInt ∧ (301989888 : I32).toInt < (318767104 : I32).toInt :=
  ⟨rfl, rfl, by decide, rfl, rfl, rfl, by decide, by decide, by decide, by decide, by decide, by decide⟩
/-- A falling engine at level 10 with increment 4. -/
def falling (target : I32) : Dx := { Dx.powerOn with ix := 2, level := 10, inc := 4, target := target }
theorem witness_DxsmpFalls : (one (opDx (falling 6))).inited = true ∧
    (one (opDx (falling 6))).ops[(0 : BitVec 8).toNat]? = some (opDx (falling 6)) ∧
    (falling 0).staticcount.toInt ≤ 0 ∧ (falling 0).ix.val < 3 ∧ (falling 0).rising = false ∧
    (falling 6).level.toInt - (falling 6).inc.toInt ≤ (falling 6).target.toInt ∧
    (falling 5).target.toInt < (falling 5).level.toInt - (falling 5).inc.toInt :=
  ⟨rfl, rfl, by decide, by decide, rfl, by decide, by decide⟩
/-- 60_exceptions.md R182: a rising stage with increment 0, one below its target, and a falling one, one above it. -/
theorem witness_DxsmpStalls : (one (opDx { rising 1 with inc := 0 })).inited = true ∧
    (one (opDx { rising 1 with inc := 0 })).ops[(0 : BitVec 8).toNat]? = some (opDx { rising 1 with inc := 0 }) ∧
    (rising 1).staticcount.toInt ≤ 0 ∧ (rising 1).ix.val = 3 ∧ (rising 1).down = false ∧ (rising 1).rising = true ∧
    (one (opDx { falling 9 with inc := 0 })).ops[(0 : BitVec 8).toNat]? = some (opDx { falling 9 with inc := 0 }) ∧
    (falling 9).staticcount.toInt ≤ 0 ∧ (falling 9).ix.val < 3 ∧ (falling 9).rising = false ∧
    (falling 9).target.toInt < (falling 9).level.toInt :=
  ⟨rfl, rfl, by decide, rfl, rfl, rfl, rfl, by decide, by decide, rfl, by decide⟩
theorem witness_DxsmpRests : (on .fm).inited = true ∧ (on .fm).ops[(0 : BitVec 8).toNat]? = some op ∧
    op.dx.staticcount.toInt ≤ 0 ∧ op.dx.ix.val = 4 ∧
    (one (opDx { Dx.powerOn with ix := 3, down := true })).ops[(0 : BitVec 8).toNat]? =
      some (opDx { Dx.powerOn with ix := 3, down := true }) := ⟨rfl, rfl, by decide, rfl, rfl⟩
theorem witness_StageFour : (on .sw).ops[0]? = some op ∧ op.dx.ix.val = 4 ∧ op.dx.staticcount.toInt ≤ 0 ∧
    after .noteon (on .sw) (op0 fun o => o.dx.ix.val != 4) = true := ⟨rfl, rfl, by decide, by decide +kernel⟩
theorem witness_CandidateValues : Config.cfgT.Valid ∧ Config.cfgT.WithinInt32 ∧ (on .fm).g.maxenv.toNat ≤ 4064 ∧
    0 ≤ (on .fm).g.srmult.toInt ∧ { Dx.powerOn with inc := 1 }.Bounded 251658240 ∧
    1 ≤ ({ Dx.powerOn with inc := 1 } : Dx).inc.toInt :=
  ⟨Config.cfgT_valid, cfgT_withinInt32, by decide, by decide, ⟨by decide, by decide, by decide, by decide, by decide⟩, by decide⟩
theorem witness_StepKeepsDexedBounds : (on .sw).cfg.WithinInt32 ∧ (on .sw).DxBounded ∧ ∃ t, step (on .sw) = .next t :=
  ⟨cfgT_withinInt32, on_dxBounded .sw, _, rfl⟩
theorem witness_NoteEvents : (on .fm).inited = true ∧ (on .fm).variant = .fm ∧ (on .sw).inited = true ∧ (on .sw).variant = .sw ∧
    (on .sw).ops[0]? = some op ∧ op.dx.down = false := ⟨rfl, rfl, rfl, rfl, rfl, rfl⟩
theorem witness_VoiceCommands : (on .sw).ops[1]? = some op ∧ ∃ t, exec .tick (on .sw) = .next t ∧
    (t.ops[1]?).isSome = true := ⟨rfl, _, rfl, by decide +kernel⟩
/-- CFG_T, but every stored Real is 1: a loop begun at 1 or above never ends. -/
def stalling : Config := { Config.cfgT with rnd := fun _ => 1, wrapTurns := fun _ => 1 }

theorem stalling_down (n : Nat) (p : ℚ) (h : 1 ≤ p) : 1 ≤ wrapDown (fun _ => 1) n p := by
  induction n generalizing p with
  | zero => exact h
  | succ n ih => rw [wrapDown_turn _ _ h]; exact ih 1 le_rfl

theorem stalling_valid : stalling.Valid :=
  { Config.cfgT_valid with
    wrapTurns_enough := by
      intro p n h
      change wrapEnded (fun _ => 1) 1 p = true
      rw [wrapEnded_iff]
      rcases lt_or_ge p 1 with hp | hp
      · rw [wrapLoops, wrapDown_ended _ _ hp]
        refine ⟨hp, ?_⟩
        rcases lt_or_ge p 0 with h0 | h0
        · rw [wrapUp_turn _ _ h0]; exact zero_le_one
        · rw [wrapUp_ended _ _ h0]; exact h0
      · exact absurd ((wrapEnded_iff _ _ _).mp h).1 (not_lt.mpr (stalling_down n p hp)) }

/-- The loop of `stalling` at 1 does not end, that of CFG_T does. -/
theorem witness_PhaseLoops : stalling.Valid ∧ wrapEnds stalling 1 = false ∧ Config.cfgT.Valid ∧ Config.cfgT.Exact ∧
    |(-9 / 4 : ℚ)| + 1 ≤ ((4 : Nat) : ℚ) :=
  ⟨stalling_valid, by decide +kernel, Config.cfgT_valid, fun _ => rfl, by norm_num [abs_of_neg]⟩

theorem wrapsTo_zero (r : ℚ → ℚ) : WrapsTo r 0 0 := ⟨0, .done (by norm_num), .done le_rfl⟩

/-- The loops of an operator at power-on, whose phase, ratio and modulation are 0, end at 0. -/
theorem witness_TickFm : (on .fm).inited = true ∧ (on .fm).variant = .fm ∧
    (∀ (a : Nat) (o : Operator), (on .fm).ops[a]? = some o →
      WrapsTo (on .fm).cfg.rnd
        (o.ph + (on .fm).cfg.detuneCombine o.p.ratio o.p.detune * o.p.f0 / (on .fm).g.sr.toNat) 0 ∧
      WrapsTo (on .fm).cfg.rnd
        ((on .fm).cfg.rnd 0 + ∑ j ∈ Finset.range (on .fm).nops, (on .fm).weight a j * (on .fm).prevOut j) 0) ∧
    (on .fm).ops[(1 : BitVec 8).toNat]? = some op := by
  refine ⟨rfl, rfl, fun a o h => ?_, rfl⟩
  have ho := mem_on (List.mem_of_getElem? h)
  have hp : ∀ j, (on .fm).prevOut j = 0 := by
    intro j
    have : (on .fm).prevOutputs = [0, 0] := rfl
    rw [State.prevOut, this]
    rcases j with _ | _ | j <;> rfl
  have h0 : o.ph + (on .fm).cfg.detuneCombine o.p.ratio o.p.detune * o.p.f0 / (on .fm).g.sr.toNat = 0 := by
    subst ho
    decide +kernel
  rw [h0]
  simp only [hp, mul_zero, Finset.sum_const_zero, add_zero]
  exact ⟨wrapsTo_zero _, wrapsTo_zero _⟩
theorem witness_TickSw : (on .sw).stuck = false ∧ (on .sw).inited = true ∧ (on .sw).variant = .sw ∧ (on .sw).ops = [op, op] ∧
    2 ≤ (on .sw).nops ∧ (on .sw).cfg.Exact ∧
    op.ph + (on .sw).cfg.detuneCombine op.p.ratio op.p.detune * op.p.f0 / (on .sw).g.sr.toNat = 0 ∧
    WrapsTo (on .sw).cfg.rnd 0 0 ∧ (on .sw).cfg.rnd 0 + op.prev0 = 0 ∧
    (on .sw).cfg.rnd 0 + (((((on .sw).cfg.toQ24 0).toInt + ((on .sw).cfg.toQ24 0).toInt) /
      2 ^ (on .sw).cfg.fbShift (on .sw).g.fbamt : Int) : ℚ) / 2 ^ 24 = 0 :=
  ⟨rfl, rfl, rfl, rfl, by decide, fun _ => rfl, by decide +kernel, wrapsTo_zero _, by decide +kernel, by decide +kernel⟩
theorem witness_FmMix : (on .fm).cfg.Exact ∧ (on .fm).Legal ∧ (on .fm).inited = true ∧ (on .fm).variant = .fm :=
  ⟨fun _ => rfl, on_legal .fm, rfl, rfl⟩
theorem witness_ALoopSticks : (on .fm).inited = true ∧ ({ on .fm with stuck := true } : State).stuck = true ∧
    (Instr.noteon ≠ .tick) ∧ (∀ n, Instr.noteon ≠ .render n) ∧ ∃ t, exec .noteon (on .fm) = .next t :=
  ⟨rfl, rfl, nofun, nofun, _, rfl⟩
theorem witness_RenderZero : (on .fm).inited = true ∧ (on .fm).ops[(0 : BitVec 8).toNat]? = some op ∧ op.egDirty = false ∧
    op.dxDirty = false ∧ (one { op with egDirty := true, dxDirty := true }).ops[(0 : BitVec 8).toNat]? =
      some { op with egDirty := true, dxDirty := true } := ⟨rfl, rfl, rfl, rfl, rfl⟩
theorem witness_RenderIsRefresh : (on .fm).stuck = false ∧ (on .sw).stuck = false ∧ (on .fm).inited = true ∧ (on .fm).variant = .fm ∧ (on .fm).ops[1]? = some op ∧
    op.egDirty = false ∧ op.dxDirty = false ∧ (on .sw).inited = true ∧ (on .sw).variant = .sw ∧ (on .sw).ops[1]? = some op ∧
    (one { op with egDirty := true }).ops[0]? = some { op with egDirty := true } ∧
    ({ one { op with dxDirty := true } with variant := .sw } : State).ops[0]? = some { op with dxDirty := true } :=
  ⟨rfl, rfl, rfl, rfl, rfl, rfl, rfl, rfl, rfl, rfl, rfl, rfl⟩
theorem witness_SplitBlocks : (0x80000000 : BitVec 32).toNat + (0x7FFFFFFF : BitVec 32).toNat < 2 ^ 32 := by decide
theorem witness_StepKeepsLegal : (on .sw).cfg.Exact ∧ (on .sw).Legal ∧ ∃ t, step (on .sw) = .next t :=
  ⟨fun _ => rfl, on_legal .sw, _, rfl⟩

end Sys2Proof.Tests
end

section
/-! PROOFS. `VARIANT`, `NOPS` and the numeric configuration (00_scope.md R6, R7): no operation, command or step changes them. -/

namespace Sys2Proof.Machine

/-! ### the meanings of the three register writes, and everything a step can do -/

theorem exec_wrg_unnamed {sel : BitVec 16} (h : gregOf sel = none) (v : BitVec 32) (s : State) :
    exec (.wrg sel v) s = .next s := by
  simp [exec, execWrg, gated, h]

theorem exec_wrg_named {sel : BitVec 16} {r : GReg} (h : gregOf sel = some r) (v : BitVec 32) (s : State) :
    exec (.wrg sel v) s = .next (gated (fun s => s.writeGlobal r v) s) := by
  simp [exec, execWrg, h]

theorem exec_wrp_unnamed {sel : BitVec 16} (h : pregOf sel = none) (k : BitVec 8) (v : BitVec 32) (s : State) :
    exec (.wrp k sel v) s = .next s := by
  simp [exec, execWrp, gated, h]

theorem exec_wrp_named {sel : BitVec 16} {r : PReg} (h : pregOf sel = some r) (k : BitVec 8) (v : BitVec 32) (s : State) :
    exec (.wrp k sel v) s =
      .next (gated (fun s => s.onOperator k (fun op => (op.writeParam s.cfg r v, []))) s) := by
  simp [exec, execWrp, h]

theorem exec_wrm (k : BitVec 8) (j : BitVec 16) (w : BitVec 32) (s : State) :
    exec (.wrm k j w) s = .next (gated (fun s =>
      if j.toNat < s.nops then s.onOperator k (fun op => (op.setWeight s.cfg j.toNat (unitValue w), [])) else s) s) := rfl

/-- With no command waiting nothing happens (10_state.md R11). -/
theorem step_idle {s : State} (hs : s.stuck = false) (hp : s.port = []) : step s = .next s := by
  simp [step, hs, fetch_nil hp]

/-- The oldest word is a command: it is executed in the state without that word (30_encoding.md R51). -/
theorem step_command {s : State} {w : Word} {rest : List Word} {i : Instr} (hs : s.stuck = false)
    (hp : s.port = w :: rest) (hd : decodeFor s.nops w = .command i) : step s = exec i { s with port := rest } := by
  simp [step, hs, fetch_cons hp, hd]

/-- The oldest word is a reserved encoding: only the port changes (30_encoding.md R63). -/
theorem step_reserved {s : State} {w v : Word} {rest : List Word} {why : Reserved} (hs : s.stuck = false)
    (hp : s.port = w :: rest) (hd : decodeFor s.nops w = .reserved why v) : step s = .next { s with port := rest } := by
  simp [step, hs, fetch_cons hp, hd, execReserved]

/-- Everything a step can do: nothing, the removal of a reserved word, or the execution of the oldest command. -/
theorem step_cases (s : State) :
    ((s.stuck = true ∨ s.port = []) ∧ step s = .next s) ∨
    (∃ w rest why v, s.stuck = false ∧ s.port = w :: rest ∧ decodeFor s.nops w = .reserved why v ∧
      step s = .next { s with port := rest }) ∨
    (∃ w rest i, s.stuck = false ∧ s.port = w :: rest ∧ decodeFor s.nops w = .command i ∧
      step s = exec i { s with port := rest }) := by
  by_cases hs : s.stuck = true
  · exact .inl ⟨.inl hs, step_stuck hs⟩
  · rw [Bool.not_eq_true] at hs
    cases hp : s.port with
    | nil => exact .inl ⟨.inr rfl, step_idle hs hp⟩
    | cons w rest =>
      cases hd : decodeFor s.nops w with
      | reserved why v => exact .inr (.inl ⟨w, rest, why, v, hs, rfl, hd, step_reserved hs hp hd⟩)
      | command i => exact .inr (.inr ⟨w, rest, i, hs, rfl, hd, step_command hs hp hd⟩)

/-! ### the parameters of 00_scope.md R6 and R7 -/

/-- `s` and `t` are states of one and the same block: `VARIANT`, the numeric configuration and `NOPS` agree
(00_scope.md R6, R7). -/
structure State.SameInstance (s t : State) : Prop where
  variant : t.variant = s.variant
  numeric : t.numeric = s.numeric
  nops : t.nops = s.nops

namespace State.SameInstance

theorem refl (s : State) : s.SameInstance s := ⟨rfl, rfl, rfl⟩

theorem trans {s t u : State} (hst : s.SameInstance t) (htu : t.SameInstance u) : s.SameInstance u :=
  ⟨htu.variant.trans hst.variant, htu.numeric.trans hst.numeric, htu.nops.trans hst.nops⟩

theorem withPort (s : State) (ws : List Word) : s.SameInstance { s with port := ws } := ⟨rfl, rfl, rfl⟩

theorem withGlobals (s : State) (g : Globals) : s.SameInstance { s with g := g } := ⟨rfl, rfl, rfl⟩

theorem gated {s : State} {f : State → State} (hf : s.SameInstance (f s)) : s.SameInstance (gated f s) := by
  rcases gated_cases f s with ⟨-, h⟩ | ⟨-, h⟩ <;> rw [h]
  · exact hf
  · exact refl s

theorem onOperator (s : State) (i : BitVec 8) (f : Operator → Operator × List Response) :
    s.SameInstance (s.onOperator i f) :=
  ⟨s.onOperator_variant i f, s.onOperator_numeric i f, s.onOperator_nops i f⟩

theorem onAll (s : State) (f : Operator → Operator) : s.SameInstance (s.onAll f) :=
  ⟨s.onAll_variant f, s.onAll_numeric f, s.onAll_nops f⟩

theorem initialise (s : State) (sr : BitVec 32) : s.SameInstance (s.initialise sr) :=
  ⟨s.initialise_variant sr, s.initialise_numeric sr, s.initialise_nops sr⟩

theorem writeGlobal (s : State) (r : GReg) (v : BitVec 32) : s.SameInstance (s.writeGlobal r v) := by
  cases r with
  | f0all => exact onAll s _
  | route => exact withGlobals s _
  | fbamt => exact withGlobals s _
  | maxenv => exact (withGlobals s { s.g with maxenv := maxenvValue s.cfg v }).trans (onAll _ Operator.markDx)

theorem sampleTick (s : State) : s.SameInstance (sampleTick s) :=
  ⟨sampleTick_variant s, sampleTick_numeric s, sampleTick_nops s⟩

theorem sampleTicks (n : Nat) (s : State) : s.SameInstance (sampleTicks n s) :=
  ⟨sampleTicks_variant n s, sampleTicks_numeric n s, sampleTicks_nops n s⟩

end State.SameInstance

/-- Every command completes, and keeps these parameters (60_exceptions.md R180, 00_scope.md R6). -/
theorem exec_next_sameInstance (i : Instr) (s : State) : ∃ t, exec i s = .next t ∧ s.SameInstance t := by
  cases i with
  | nop => exact ⟨s, rfl, .refl s⟩
  | init sr => exact ⟨_, exec_init sr s, .initialise s sr⟩
  | wrg sel v =>
    cases h : gregOf sel with
    | none => exact ⟨s, exec_wrg_unnamed h v s, .refl s⟩
    | some r => exact ⟨_, exec_wrg_named h v s, .gated (.writeGlobal s r v)⟩
  | wrp k sel v =>
    cases h : pregOf sel with
    | none => exact ⟨s, exec_wrp_unnamed h k v s, .refl s⟩
    | some r => exact ⟨_, exec_wrp_named h k v s, .gated (.onOperator s k _)⟩
  | wrm k j w =>
    refine ⟨_, exec_wrm k j w s, .gated ?_⟩
    split
    · exact .onOperator s k _
    · exact .refl s
  | noteon => exact ⟨_, exec_noteon s, .gated (.onAll s _)⟩
  | noteoff => exact ⟨_, exec_noteoff s, .gated (.onAll s _)⟩
  | tick => exact ⟨_, exec_tick s, .gated (.sampleTick s)⟩
  | render n =>
    exact ⟨_, exec_render n s, .gated ((State.SameInstance.onAll s _).trans (.sampleTicks n.toNat s.refreshAll))⟩
  | egset k => exact ⟨_, exec_egset k s, .gated (.onOperator s k _)⟩
  | egon k => exact ⟨_, exec_egon k s, .gated (.onOperator s k _)⟩
  | egoff k => exact ⟨_, exec_egoff k s, .gated (.onOperator s k _)⟩
  | egadv k => exact ⟨_, exec_egadv k s, .gated (.onOperator s k _)⟩
  | dxkey k down => exact ⟨_, exec_dxkey k down s, .gated (.onOperator s k _)⟩
  | dxupd k => exact ⟨_, exec_dxupd k s, .gated (.onOperator s k _)⟩
  | dxsmp k n => exact ⟨_, exec_dxsmp k n s, .gated (.onOperator s k _)⟩

/-- Every step completes, and keeps these parameters (60_exceptions.md R180, 00_scope.md R6). -/
theorem step_next_sameInstance (s : State) : ∃ t, step s = .next t ∧ s.SameInstance t := by
  rcases step_cases s with ⟨-, h⟩ | ⟨-, rest, -, -, -, -, -, h⟩ | ⟨-, rest, i, -, -, -, h⟩
  · exact ⟨s, h, .refl s⟩
  · exact ⟨_, h, .withPort s rest⟩
  · obtain ⟨t, ht, hsame⟩ := exec_next_sameInstance i { s with port := rest }
    exact ⟨t, h.trans ht, (State.SameInstance.withPort s rest).trans hsame⟩

theorem sameInstance_of_step {s t : State} (h : step s = .next t) : s.SameInstance t := by
  obtain ⟨u, hu, hsame⟩ := step_next_sameInstance s
  obtain rfl : u = t := Host.Outcome.next.inj (hu.symm.trans h)
  exact hsame

/-- Settles O11: a step idles, drops a reserved word or executes a command, and each of these keeps the parameters. -/
theorem noStepChangesTheInstance : Obligations.NoStepChangesTheInstance := by
  unfold Obligations.NoStepChangesTheInstance
  intro s t h
  obtain ⟨hvariant, hnumeric, hnops⟩ := sameInstance_of_step h
  exact ⟨hvariant, hnumeric, hnops⟩

end Sys2Proof.Machine
end

section
/-! PROOFS. What holds of the registers around `INIT`: the gate of 44_voice_commands.md R160 keeps the power-on state, which is
legal; `INIT` alone writes the sample rate (10_state.md R16) and forgets what came before (R29). And the feedback ring of R26. -/

namespace Sys2Proof.Machine

/-! ### the sample rate, and the gate -/

/-- `SR` and `SRMULT` agree in `s` and `t` (10_state.md R16). -/
structure State.SameSampleRate (s t : State) : Prop where
  sr : t.g.sr = s.g.sr
  srmult : t.g.srmult = s.g.srmult

namespace State.SameSampleRate

theorem of_g {s t : State} (h : t.g = s.g) : s.SameSampleRate t := by
  constructor <;> rw [h]

theorem gated {s : State} {f : State → State} (hf : s.SameSampleRate (f s)) : s.SameSampleRate (gated f s) := by
  rcases gated_cases f s with ⟨-, h⟩ | ⟨-, h⟩ <;> rw [h]
  · exact hf
  · exact of_g rfl

theorem onOperator (s : State) (i : BitVec 8) (f : Operator → Operator × List Response) :
    s.SameSampleRate (s.onOperator i f) :=
  of_g (s.onOperator_g i f)

/-- A global write changes another register than these two (44_voice_commands.md R165). -/
theorem writeGlobal (s : State) (r : GReg) (v : BitVec 32) : s.SameSampleRate (s.writeGlobal r v) := by
  cases r <;> exact ⟨rfl, rfl⟩

theorem sampleTicks_refreshAll (n : Nat) (s : State) : s.SameSampleRate (sampleTicks n s.refreshAll) :=
  of_g (sampleTicks_g n s.refreshAll)

end State.SameSampleRate

theorem gated_id (s : State) : gated id s = s := by
  rcases gated_cases id s with ⟨-, h⟩ | ⟨-, h⟩ <;> exact h

/-- Every command but `INIT` is the gate of 44_voice_commands.md R160 on an update, one that keeps the sample rate. -/
theorem exec_gated_sameSampleRate (i : Instr) (hi : ∀ sr, i ≠ .init sr) :
    ∃ f : State → State, (∀ s, exec i s = .next (gated f s)) ∧ ∀ s : State, s.SameSampleRate (f s) := by
  cases i with
  | nop => exact ⟨id, fun s => by rw [gated_id]; rfl, fun s => .of_g rfl⟩
  | init sr => exact absurd rfl (hi sr)
  | wrg sel v =>
    cases h : gregOf sel with
    | none => exact ⟨id, fun s => by rw [gated_id, exec_wrg_unnamed h], fun s => .of_g rfl⟩
    | some r => exact ⟨_, exec_wrg_named h v, fun s => .writeGlobal s r v⟩
  | wrp k sel v =>
    cases h : pregOf sel with
    | none => exact ⟨id, fun s => by rw [gated_id, exec_wrp_unnamed h], fun s => .of_g rfl⟩
    | some r => exact ⟨_, exec_wrp_named h k v, fun s => .onOperator s k _⟩
  | wrm k j w =>
    refine ⟨_, exec_wrm k j w, fun s => ?_⟩
    split
    · exact .onOperator s k _
    · exact .of_g rfl
  | noteon => exact ⟨_, exec_noteon, fun s => .of_g (s.onAll_g _)⟩
  | noteoff => exact ⟨_, exec_noteoff, fun s => .of_g (s.onAll_g _)⟩
  | tick => exact ⟨_, exec_tick, fun s => .of_g (sampleTick_g s)⟩
  | render n => exact ⟨_, exec_render n, fun s => .sampleTicks_refreshAll n.toNat s⟩
  | egset k => exact ⟨_, exec_egset k, fun s => .onOperator s k _⟩
  | egon k => exact ⟨_, exec_egon k, fun s => .onOperator s k _⟩
  | egoff k => exact ⟨_, exec_egoff k, fun s => .onOperator s k _⟩
  | egadv k => exact ⟨_, exec_egadv k, fun s => .onOperator s k _⟩
  | dxkey k down => exact ⟨_, exec_dxkey k down, fun s => .onOperator s k _⟩
  | dxupd k => exact ⟨_, exec_dxupd k, fun s => .onOperator s k _⟩
  | dxsmp k n => exact ⟨_, exec_dxsmp k n, fun s => .onOperator s k _⟩

/-- While `INITED` is 0, a command other than `INIT` changes nothing (44_voice_commands.md R160). -/
theorem exec_not_inited {i : Instr} {s : State} (hi : ∀ sr, i ≠ .init sr) (hs : s.inited = false) :
    exec i s = .next s := by
  obtain ⟨f, hf, -⟩ := exec_gated_sameSampleRate i hi
  rw [hf, gated_not_inited f hs]

/-- Settles O13: every command but `INIT` is a gated update that keeps both registers. -/
theorem onlyInitWritesTheSampleRate : Obligations.OnlyInitWritesTheSampleRate := by
  unfold Obligations.OnlyInitWritesTheSampleRate
  intro i s t h hi
  obtain ⟨f, hf, hkeep⟩ := exec_gated_sameSampleRate i hi
  obtain rfl : gated f s = t := Host.Outcome.next.inj ((hf s).symm.trans h)
  obtain ⟨hsr, hsrmult⟩ := State.SameSampleRate.gated (hkeep s)
  exact ⟨hsr, hsrmult⟩

/-- Settles O14: the reset state has `INITED = 0`, so the gate is closed there. -/
theorem powerOnWaitsForInit : Obligations.PowerOnWaitsForInit := by
  unfold Obligations.PowerOnWaitsForInit
  exact ⟨rfl, rfl, rfl, rfl, fun _ hi => exec_not_inited hi rfl⟩

/-! ### `INIT` -/

@[simp] theorem State.powerOn_nops (v : Variant) (n : Nat) (num : Numeric) : (State.powerOn v n num).nops = n := by
  simp [State.nops, State.powerOn]

@[simp] theorem State.powerOn_cfg (v : Variant) (n : Nat) (num : Numeric) :
    (State.powerOn v n num).cfg = Config.of num := rfl

/-- `INIT` reads nothing of a state but which block it is (00_scope.md R6, R7): it gives what it gives at power-on of that
block, and the streams, the port and a loop that never ends go on (10_state.md R29, 44_voice_commands.md R161). -/
theorem State.initialise_eq_powerOn (s : State) (sr : BitVec 32) :
    s.initialise sr = { (State.powerOn s.variant s.nops s.numeric).initialise sr with
      responses := s.responses, samples := s.samples, port := s.port, stuck := s.stuck } := by
  simp only [State.initialise, State.powerOn_nops, State.powerOn_cfg]
  rfl

/-- Settles O16: both states are initialised as the power-on state of their one block is. -/
theorem initForgetsWhatCameBefore : Obligations.InitForgetsWhatCameBefore := by
  unfold Obligations.InitForgetsWhatCameBefore
  intro s₁ s₂ sr hvariant hnumeric hnops hresponses hsamples hport hstuck
  rw [exec_init, exec_init, s₁.initialise_eq_powerOn, s₂.initialise_eq_powerOn, hvariant, hnumeric, hnops, hresponses,
    hsamples, hport, hstuck]

/-! ### power-on is legal -/

theorem Params.powerOn_legal (c : Config) : Params.powerOn.Legal c := by
  constructor <;> norm_num [Params.powerOn]

theorem Seg.powerOn_legal : Seg.powerOn.Legal := by
  constructor <;> norm_num [Seg.powerOn]

/-- The five segments of power-on are one and the same, so the level chain of 41_eg_dx7.md R81 is one of zeros. -/
theorem Eg.powerOn_legal : Eg.powerOn.Legal where
  step :=
    { segs := fun k => by cases k <;> exact Seg.powerOn_legal
      attack := rfl
      decay := rfl
      decay2 := rfl
      sustain := ⟨rfl, rfl⟩
      hold := ⟨rfl, rfl⟩
      release := rfl
      silence := rfl }
  level := ⟨le_rfl, zero_le_one⟩

theorem Dx.powerOn_legal : Dx.powerOn.Legal := by
  constructor <;> decide

theorem Operator.powerOn_legal (c : Config) (v : Variant) (n : Nat) : (Operator.powerOn n).Legal c v where
  params := Params.powerOn_legal c
  row w hw := by
    rw [List.eq_of_mem_replicate hw]
    exact ⟨le_rfl, zero_le_one⟩
  eg := Eg.powerOn_legal
  dx := Dx.powerOn_legal
  ph := ⟨le_rfl, zero_lt_one⟩
  prev _ := by norm_num [Operator.powerOn]

/-- Power-on of every block that 00_scope.md R6 allows is legal. -/
theorem State.powerOn_legal {v : Variant} {n : Nat} (num : Numeric) (hpos : 1 ≤ n) (hle : n ≤ 8) (hsw : v = .sw → n = 2) :
    (State.powerOn v n num).Legal where
  running := rfl
  shape :=
    { nops_pos := by rwa [State.powerOn_nops]
      nops_le := by rwa [State.powerOn_nops]
      sw_two := by rwa [State.powerOn_nops]
      rows := fun op hop => by
        rw [List.eq_of_mem_replicate hop, State.powerOn_nops]
        exact List.length_replicate }
  globals := ⟨le_rfl, le_rfl, Nat.zero_le _⟩
  operators op hop := by
    rw [List.eq_of_mem_replicate hop]
    exact Operator.powerOn_legal _ _ n

/-- Settles O56: the reset state is the power-on state of a block with two operators. -/
theorem resetStateIsLegal : Obligations.ResetStateIsLegal :=
  State.powerOn_legal .device (by decide) (by decide) nofun

/-! ### the ends of the loops in exact arithmetic, and the feedback ring -/

/-- In exact arithmetic the loops of `wrap01` end (43_operator_mod_mix.md R135). -/
theorem wrapEnds_of_exact {c : Config} (hvalid : c.Valid) (hexact : c.Exact) (p : ℚ) : wrapEnds c p = true := by
  have hrnd : c.rnd = fun x => x := funext hexact
  refine hvalid.wrapTurns_enough p (exactTurns p) ?_
  rw [hrnd]
  exact wrapEnded_exact p

theorem State.tickEnds_of_exact {s : State} (h : s.cfg.Exact) : s.tickEnds = true := by
  have hends (p : ℚ) : wrapEnds s.cfg p = true := wrapEnds_of_exact (Config.of_valid s.numeric) h p
  rw [State.tickEnds_iff]
  intro a op _
  rw [State.loopsEnd, hends, hends, Bool.and_self]

@[simp] theorem Operator.stepEngine_prevAt (c : Config) (v : Variant) (g : Globals) (op : Operator) (b : Bool) :
    (op.stepEngine c v g).prevAt b = op.prevAt b := by
  cases v <;> rfl

/-- A tick writes the output into the buffer that `PP` does not name (10_state.md R25, 43_operator_mod_mix.md R147). -/
theorem State.tickOperator_prevAt_not (s : State) (i : Nat) (op : Operator) :
    (s.tickOperator i op).prevAt (!s.pp) = s.cfg.rnd (s.output i op) :=
  Operator.setPrev_prevAt ..

/-- A tick keeps the buffer that `PP` names. -/
theorem State.tickOperator_prevAt (s : State) (i : Nat) (op : Operator) :
    (s.tickOperator i op).prevAt s.pp = op.prevAt s.pp := by
  have h := Operator.setPrev_prevAt_not s.cfg
    { op.stepEngine s.cfg s.variant s.g with ph := op.nextPhase s.cfg s.g } (!s.pp) (s.output i op)
  rw [Bool.not_not] at h
  exact h.trans (Operator.stepEngine_prevAt s.cfg s.variant s.g op s.pp)

theorem State.outputs_getD {s : State} {i : Nat} {op : Operator} (h : s.ops[i]? = some op) :
    s.outputs.getD i 0 = s.output i op := by
  simp [State.outputs, List.getD_eq_getElem?_getD, h]

/-- After an `SW` tick `fb0` is the modulator's latest output (10_state.md R26). -/
theorem State.nextFb0_sw {s : State} {op : Operator} (hsw : s.variant = .sw) (h : s.ops[1]? = some op) :
    s.nextFb0 = (s.tickOperator 1 op).prevAt (!s.pp) := by
  rw [State.tickOperator_prevAt_not, State.nextFb0, hsw, State.outputs_getD h]

theorem State.nextFb1_sw {s : State} (hsw : s.variant = .sw) : s.nextFb1 = s.cfg.rnd s.fb0 := by
  rw [State.nextFb1, hsw]

/-- After two `SW` ticks whose loops end, the ring holds the modulator's two buffers, the older one stored once more
(10_state.md R26). -/
theorem State.ring_after_two_ticks {s : State} (hsw : s.variant = .sw) (hnops : 2 ≤ s.nops) :
    ∃ op, s.ticked.ticked.ops[1]? = some op ∧
      s.ticked.ticked.fb0 = op.prevAt s.ticked.ticked.pp ∧
      s.ticked.ticked.fb1 = s.cfg.rnd (op.prevAt (!s.ticked.ticked.pp)) := by
  obtain ⟨op₀, h₀⟩ : ∃ op, s.ops[1]? = some op := ⟨_, List.getElem?_eq_getElem hnops⟩
  have h₁ : s.ticked.ops[1]? = some (s.tickOperator 1 op₀) := by rw [State.ticked_getElem?, h₀, Option.map_some]
  refine ⟨s.ticked.tickOperator 1 (s.tickOperator 1 op₀), ?_, ?_, ?_⟩
  · rw [State.ticked_getElem?, h₁, Option.map_some]
  · exact State.nextFb0_sw hsw h₁
  · calc s.ticked.ticked.fb1
        = s.cfg.rnd s.ticked.fb0 := State.nextFb1_sw hsw
      _ = s.cfg.rnd ((s.tickOperator 1 op₀).prevAt s.ticked.pp) := by rw [State.ticked_fb0, State.nextFb0_sw hsw h₀]; rfl
      _ = s.cfg.rnd ((s.ticked.tickOperator 1 (s.tickOperator 1 op₀)).prevAt (!s.ticked.ticked.pp)) := by
        rw [State.ticked_pp s.ticked, Bool.not_not, State.tickOperator_prevAt]

theorem execAll_tick_cons {s : State} (is : List Instr) (hs : s.stuck = false) (hi : s.inited = true) :
    execAll (.tick :: is) s = execAll is (sampleTick s) :=
  execAll_cons is hs (by rw [exec_tick, gated_inited _ hi])

/-- Two `TICK`s: both end, or one of them leaves the block stuck. -/
theorem execAll_two_ticks {s : State} (hs : s.stuck = false) (hi : s.inited = true) :
    execAll [.tick, .tick] s = .next s.ticked.ticked ∨
    ((s.tickEnds = false ∨ s.ticked.tickEnds = false) ∧
      ∃ t, execAll [.tick, .tick] s = .next t ∧ t.stuck = true) := by
  rw [execAll_tick_cons _ hs hi]
  rcases sampleTick_cases s with ⟨-, h⟩ | ⟨hends, h⟩ <;> rw [h]
  · rw [execAll_tick_cons _ (s.ticked_stuck.trans hs) (s.ticked_inited.trans hi)]
    rcases sampleTick_cases s.ticked with ⟨-, h'⟩ | ⟨hends, h'⟩ <;> rw [h']
    · exact .inl rfl
    · exact .inr ⟨.inr hends, _, rfl, rfl⟩
  · exact .inr ⟨.inl hends, _, execAll_stuck _ rfl, rfl⟩

/-- Settles O51: where both ticks end the ring is that of `State.ring_after_two_ticks`; where one does not, the block is stuck,
which exact arithmetic excludes. -/
theorem feedbackRingFollowsTheModulator : Obligations.FeedbackRingFollowsTheModulator := by
  unfold Obligations.FeedbackRingFollowsTheModulator
  intro s hs hi hsw hnops
  rcases execAll_two_ticks hs hi with hrun | ⟨hends, t, hrun, hstuck⟩
  · obtain ⟨op, hop, hfb0, hfb1⟩ := State.ring_after_two_ticks hsw hnops
    exact ⟨_, hrun, fun _ => hs, fun _ => ⟨op, hop, hfb0, hfb1, fun hexact => hfb1.trans (hexact _)⟩⟩
  · refine ⟨t, hrun, fun hexact => ?_, fun h => ?_⟩
    · have h₀ : s.tickEnds = true := State.tickEnds_of_exact hexact
      have h₁ : s.ticked.tickEnds = true := State.tickEnds_of_exact hexact
      simp [h₀, h₁] at hends
    · simp [hstuck] at h

end Sys2Proof.Machine
end

section
/-! PROOFS. A command word as eight bytes of the host's memory: their order and the round trip (20_memory.md R43). -/

namespace Sys2Proof

theorem bytesOfWord_getElem? (w : Word) {k : Nat} (hk : k < 8) :
    (bytesOfWord w)[k]? = some (w.extractLsb' (8 * k) 8) := by
  unfold bytesOfWord
  interval_cases k <;> rfl

/-- Each byte is adjacent to the bits already joined above it, so the join grows downwards from bits 63:56 to the whole word. -/
theorem wordOfBytes_bytesOfWord (w : Word) : wordOfBytes (bytesOfWord w) = some w := by
  refine congrArg some ?_
  simp (disch := rfl) only [BitVec.extractLsb'_append_extractLsb'_eq_extractLsb']
  exact BitVec.extractLsb'_eq_self

/-- Settles O5: the round trip and the place of each byte. -/
theorem hostBytesAreLittleEndian : Obligations.HostBytesAreLittleEndian := by
  unfold Obligations.HostBytesAreLittleEndian
  exact fun w => ⟨wordOfBytes_bytesOfWord w, fun _ hk => bytesOfWord_getElem? w hk⟩

end Sys2Proof
end

section
/-! PROOFS. The decoder and the encoder: an equation per opcode, the reserved opcodes and selects, the round trip
(30_encoding.md R50, R53, R54, R63). -/

namespace Sys2Proof

/-! ### what each opcode decodes to, whatever the other bits are (30_encoding.md R53) -/

section
variable {w : Word}

theorem decode_nop (h : opcOf w = 0x00) : decode w = .command .nop := by simp [decode, h]
theorem decode_init (h : opcOf w = 0x01) : decode w = .command (.init (immOf w)) := by simp [decode, h]
theorem decode_wrg (h : opcOf w = 0x02) (hs : (selOf w).toNat ≤ 0x0003) :
    decode w = .command (.wrg (selOf w) (immOf w)) := by simp [decode, h, hs]
theorem decode_wrp (h : opcOf w = 0x03) (hs : (selOf w).toNat ≤ 0x0014) :
    decode w = .command (.wrp (opiOf w) (selOf w) (immOf w)) := by simp [decode, h, hs]
theorem decode_wrm (h : opcOf w = 0x04) : decode w = .command (.wrm (opiOf w) (selOf w) (immOf w)) := by simp [decode, h]
theorem decode_noteon (h : opcOf w = 0x08) : decode w = .command .noteon := by simp [decode, h]
theorem decode_noteoff (h : opcOf w = 0x09) : decode w = .command .noteoff := by simp [decode, h]
theorem decode_tick (h : opcOf w = 0x0A) : decode w = .command .tick := by simp [decode, h]
theorem decode_render (h : opcOf w = 0x0B) : decode w = .command (.render (immOf w)) := by simp [decode, h]
theorem decode_egset (h : opcOf w = 0x10) : decode w = .command (.egset (opiOf w)) := by simp [decode, h]
theorem decode_egon (h : opcOf w = 0x11) : decode w = .command (.egon (opiOf w)) := by simp [decode, h]
theorem decode_egoff (h : opcOf w = 0x12) : decode w = .command (.egoff (opiOf w)) := by simp [decode, h]
theorem decode_egadv (h : opcOf w = 0x13) : decode w = .command (.egadv (opiOf w)) := by simp [decode, h]
theorem decode_dxkey (h : opcOf w = 0x18) : decode w = .command (.dxkey (opiOf w) ((immOf w).getLsbD 0)) := by
  simp [decode, h]
theorem decode_dxupd (h : opcOf w = 0x19) : decode w = .command (.dxupd (opiOf w)) := by simp [decode, h]
theorem decode_dxsmp (h : opcOf w = 0x1A) : decode w = .command (.dxsmp (opiOf w) (immOf w)) := by simp [decode, h]

/-! ### the reserved opcodes and selects (30_encoding.md R63) -/

theorem decode_wrg_reserved (h : opcOf w = 0x02) (hs : 0x0003 < (selOf w).toNat) : decode w = .reserved .globalSelect w := by
  simp [decode, h, hs]

theorem decode_wrp_reserved (h : opcOf w = 0x03) (hs : 0x0014 < (selOf w).toNat) : decode w = .reserved .paramSelect w := by
  simp [decode, h, hs]

theorem decode_opcode_reserved
    (h : (0x05 ≤ (opcOf w).toNat ∧ (opcOf w).toNat ≤ 0x07) ∨ (0x0C ≤ (opcOf w).toNat ∧ (opcOf w).toNat ≤ 0x0F) ∨
      (0x14 ≤ (opcOf w).toNat ∧ (opcOf w).toNat ≤ 0x17) ∨ 0x1B ≤ (opcOf w).toNat) :
    decode w = .reserved .opcode w := by
  unfold decode
  split
  case h_17 => rfl
  all_goals omega

end

/-! ### the statements on words -/

/-- Settles O2: each opcode's equation at the fields of a packed word, and the encoder's fields. -/
theorem opcodeSelectsAndUnusedFieldsAreIgnored : Obligations.OpcodeSelectsAndUnusedFieldsAreIgnored := by
  unfold Obligations.OpcodeSelectsAndUnusedFieldsAreIgnored
  refine ⟨fun opi sel imm => ?_, fun k sel v down => ?_⟩
  · have hopc (opc : BitVec 8) : opcOf (packWord opc opi sel imm) = opc := opcOf_packWord ..
    have hopi (opc : BitVec 8) : opiOf (packWord opc opi sel imm) = opi := opiOf_packWord ..
    have hsel (opc : BitVec 8) : selOf (packWord opc opi sel imm) = sel := selOf_packWord ..
    have himm (opc : BitVec 8) : immOf (packWord opc opi sel imm) = imm := immOf_packWord ..
    refine ⟨decode_nop (hopc _), ?_, fun hs => ?_, fun hs => ?_, ?_, decode_noteon (hopc _), decode_noteoff (hopc _),
      decode_tick (hopc _), ?_, ?_, ?_, ?_, ?_, ?_, ?_, ?_⟩
    · rw [decode_init (hopc _), himm]
    · rw [decode_wrg (hopc _) (by rwa [hsel]), hsel, himm]
    · rw [decode_wrp (hopc _) (by rwa [hsel]), hopi, hsel, himm]
    · rw [decode_wrm (hopc _), hopi, hsel, himm]
    · rw [decode_render (hopc _), himm]
    · rw [decode_egset (hopc _), hopi]
    · rw [decode_egon (hopc _), hopi]
    · rw [decode_egoff (hopc _), hopi]
    · rw [decode_egadv (hopc _), hopi]
    · rw [decode_dxkey (hopc _), hopi, himm]
    · rw [decode_dxupd (hopc _), hopi]
    · rw [decode_dxsmp (hopc _), hopi, himm]
  · exact ⟨rfl, rfl, rfl, rfl, rfl, rfl, rfl, rfl, rfl, rfl, rfl, rfl, rfl, rfl, rfl, rfl⟩

/-- The key bit of `DXKEY` (30_encoding.md R55). -/
theorem immField_dxkey_getLsbD (k : BitVec 8) (down : Bool) : (immField (.dxkey k down)).getLsbD 0 = down := by
  rw [immField]
  cases down <;> rfl

/-- Settles O1: the four fields of the canonical word (`Laws.EncodeFields`) put into the equation of its opcode. -/
theorem decodeOfEncodeIsTheCommand : Obligations.DecodeOfEncodeIsTheCommand := by
  unfold Obligations.DecodeOfEncodeIsTheCommand
  intro i hi
  obtain ⟨hopc, hopi, hsel, himm⟩ := Laws.EncodeFields.of_pack i
  cases i with
  | nop => exact decode_nop hopc
  | init sr => rw [decode_init hopc, himm, immField]
  | wrg sel v =>
    have hs : sel.toNat ≤ 0x0003 := of_decide_eq_true hi
    rw [decode_wrg hopc (by rwa [hsel]), hsel, himm, selField, immField]
  | wrp k sel v =>
    have hs : sel.toNat ≤ 0x0014 := of_decide_eq_true hi
    rw [decode_wrp hopc (by rwa [hsel]), hopi, hsel, himm, opiField, selField, immField]
  | wrm k j w => rw [decode_wrm hopc, hopi, hsel, himm, opiField, selField, immField]
  | noteon => exact decode_noteon hopc
  | noteoff => exact decode_noteoff hopc
  | tick => exact decode_tick hopc
  | render n => rw [decode_render hopc, himm, immField]
  | egset k => rw [decode_egset hopc, hopi, opiField]
  | egon k => rw [decode_egon hopc, hopi, opiField]
  | egoff k => rw [decode_egoff hopc, hopi, opiField]
  | egadv k => rw [decode_egadv hopc, hopi, opiField]
  | dxkey k down => rw [decode_dxkey hopc, hopi, himm, opiField, immField_dxkey_getLsbD]
  | dxupd k => rw [decode_dxupd hopc, hopi, opiField]
  | dxsmp k n => rw [decode_dxsmp hopc, hopi, himm, opiField, immField]

/-- Settles O4: each of the nine words is the canonical word of its command. -/
theorem spelledOutWordsDecode : Obligations.SpelledOutWordsDecode := by
  unfold Obligations.SpelledOutWordsDecode
  exact ⟨decodeOfEncodeIsTheCommand .nop rfl, decodeOfEncodeIsTheCommand (.init 48000) rfl,
    decodeOfEncodeIsTheCommand (.wrg 3 4064) rfl, decodeOfEncodeIsTheCommand (.wrp 1 0x11 0xFFFF8000) rfl,
    decodeOfEncodeIsTheCommand (.wrm 0 1 0x4000) rfl, decodeOfEncodeIsTheCommand (.render 64) rfl,
    decodeOfEncodeIsTheCommand (.egset 1) rfl, decodeOfEncodeIsTheCommand (.dxkey 0 true) rfl,
    decodeOfEncodeIsTheCommand (.dxsmp 1 5) rfl⟩

end Sys2Proof
end

section
/-! PROOFS. An index out of range, the reserved encodings and the step at the oldest waiting word (30_encoding.md R51, R56,
R63). -/

namespace Sys2Proof.Machine

/-! ### the no-op of an index out of range -/

theorem gated_eq_self {s : State} {f : State → State} (h : f s = s) : gated f s = s := by
  rcases gated_cases f s with ⟨-, hf⟩ | ⟨-, hf⟩
  · exact hf.trans h
  · exact hf

theorem State.onOperator_out_of_range {s : State} {k : BitVec 8} (hk : s.nops ≤ k.toNat)
    (f : Operator → Operator × List Response) : s.onOperator k f = s :=
  State.onOperator_of_none (List.getElem?_eq_none hk)

theorem gated_onOperator_out_of_range {s : State} {k : BitVec 8} (hk : s.nops ≤ k.toNat)
    (f : State → Operator → Operator × List Response) : gated (fun s => s.onOperator k (f s)) s = s :=
  gated_eq_self (State.onOperator_out_of_range hk _)

/-- A command of 30_encoding.md R56 with an index out of range changes nothing and appends nothing. -/
theorem exec_of_not_indexOk {i : Instr} {s : State} (h : i.indexOk s.nops = false) : exec i s = .next s := by
  cases i with
  | nop | init | wrg | noteon | noteoff | tick | render => exact nomatch h
  | wrp k sel v =>
    have hk : s.nops ≤ k.toNat := not_lt.mp (of_decide_eq_false h)
    cases hr : pregOf sel with
    | none => exact exec_wrp_unnamed hr k v s
    | some r => rw [exec_wrp_named hr, gated_onOperator_out_of_range hk]
  | wrm k j w =>
    rw [exec_wrm]
    refine congrArg _ (gated_eq_self ?_)
    split
    next hj =>
      have hk : s.nops ≤ k.toNat := by simpa [Instr.indexOk, hj] using h
      exact State.onOperator_out_of_range hk _
    next => rfl
  | egset k => rw [exec_egset, gated_onOperator_out_of_range (not_lt.mp (of_decide_eq_false h))]
  | egon k => rw [exec_egon, gated_onOperator_out_of_range (not_lt.mp (of_decide_eq_false h))]
  | egoff k => rw [exec_egoff, gated_onOperator_out_of_range (not_lt.mp (of_decide_eq_false h))]
  | egadv k => rw [exec_egadv, gated_onOperator_out_of_range (not_lt.mp (of_decide_eq_false h))]
  | dxkey k down => rw [exec_dxkey, gated_onOperator_out_of_range (not_lt.mp (of_decide_eq_false h))]
  | dxupd k => rw [exec_dxupd, gated_onOperator_out_of_range (not_lt.mp (of_decide_eq_false h))]
  | dxsmp k n => rw [exec_dxsmp, gated_onOperator_out_of_range (not_lt.mp (of_decide_eq_false h))]

/-- Settles O10: none of these commands has its index in range. -/
theorem indexOutOfRangeIsNoOp : Obligations.IndexOutOfRangeIsNoOp := by
  unfold Obligations.IndexOutOfRangeIsNoOp
  intro s k
  refine ⟨fun hk => ?_, fun j w hj => exec_of_not_indexOk (by simp [Instr.indexOk, not_lt.mpr hj])⟩
  have hout : decide (k.toNat < s.nops) = false := decide_eq_false (not_lt.mpr hk)
  exact ⟨fun _ _ => exec_of_not_indexOk hout, fun _ _ => exec_of_not_indexOk (by simp [Instr.indexOk, hout]),
    exec_of_not_indexOk hout, exec_of_not_indexOk hout, exec_of_not_indexOk hout, exec_of_not_indexOk hout,
    fun _ => exec_of_not_indexOk hout, exec_of_not_indexOk hout, fun _ => exec_of_not_indexOk hout⟩

/-! ### the decoder that knows `NOPS`, and the step -/

theorem decodeFor_command {nops : Nat} {w : Word} {i : Instr} (hd : decode w = .command i) (hi : i.indexOk nops = true) :
    decodeFor nops w = .command i := by
  simp [decodeFor, hd, hi]

theorem decodeFor_index {nops : Nat} {w : Word} {i : Instr} (hd : decode w = .command i) (hi : i.indexOk nops = false) :
    decodeFor nops w = .reserved .index w := by
  simp [decodeFor, hd, hi]

theorem decodeFor_reserved (nops : Nat) {w v : Word} {why : Reserved} (hd : decode w = .reserved why v) :
    decodeFor nops w = .reserved why v := by
  simp [decodeFor, hd]

/-- A step at a word that decodes to a command: where its index is out of range, taking the reserved word from the port and
executing the command come to the same. -/
theorem step_decode {s : State} {w : Word} {rest : List Word} {i : Instr} (hs : s.stuck = false)
    (hp : s.port = w :: rest) (hd : decode w = .command i) : step s = exec i { s with port := rest } := by
  cases hi : i.indexOk s.nops with
  | true => exact step_command hs hp (decodeFor_command hd hi)
  | false => rw [step_reserved hs hp (decodeFor_index hd hi), exec_of_not_indexOk (s := { s with port := rest }) hi]

/-- Settles O6: a command at the head of the port, an empty port, a stuck block. -/
theorem stepRunsTheOldestWaitingCommand : Obligations.StepRunsTheOldestWaitingCommand := by
  unfold Obligations.StepRunsTheOldestWaitingCommand
  refine ⟨fun s w rest i => step_decode, fun s hp => ?_, fun s => step_stuck⟩
  cases hs : s.stuck with
  | true => exact step_stuck hs
  | false => exact step_idle hs hp

/-- Settles O3: each kind of reserved word is named by that decoder, and a step only takes it. -/
theorem reservedWordsActAsNop : Obligations.ReservedWordsActAsNop := by
  unfold Obligations.ReservedWordsActAsNop
  intro s w rest hs hp
  have htaken {why : Reserved} (hd : decodeFor s.nops w = .reserved why w) :
      decodeFor s.nops w = .reserved why w ∧ step s = .next { s with port := rest } := ⟨hd, step_reserved hs hp hd⟩
  exact ⟨fun hopc => htaken (decodeFor_reserved _ (decode_opcode_reserved hopc)),
    fun hopc hsel => htaken (decodeFor_reserved _ (decode_wrp_reserved hopc hsel)),
    fun hopc hsel => htaken (decodeFor_reserved _ (decode_wrg_reserved hopc hsel)),
    fun i hd hi => htaken (decodeFor_index hd hi)⟩

end Sys2Proof.Machine
end

section
/-! PROOFS. Commands waiting on the port: none reads the words behind it, so a list of them runs as its commands do in order
(30_encoding.md R51, 20_memory.md R45). -/

namespace Sys2Proof.Machine

/-- The state with `ws` as the commands issued and not yet executed (30_encoding.md R51). -/
def State.withPort (s : State) (ws : List Word) : State := { s with port := ws }

@[simp] theorem State.withPort_inited (s : State) (ws : List Word) : (s.withPort ws).inited = s.inited := rfl
@[simp] theorem State.withPort_ops (s : State) (ws : List Word) : (s.withPort ws).ops = s.ops := rfl
@[simp] theorem State.withPort_nops (s : State) (ws : List Word) : (s.withPort ws).nops = s.nops := rfl
@[simp] theorem State.withPort_port (s : State) (ws : List Word) : (s.withPort ws).port = ws := rfl
@[simp] theorem State.withPort_tickEnds (s : State) (ws : List Word) : (s.withPort ws).tickEnds = s.tickEnds := rfl
@[simp] theorem State.withPort_self (s : State) : s.withPort s.port = s := rfl

/-- `f` neither reads nor writes the waiting commands. -/
def PortBlind (f : State → State) : Prop := ∀ (s : State) (ws : List Word), f (s.withPort ws) = (f s).withPort ws

namespace PortBlind

theorem port_eq {f : State → State} (hf : PortBlind f) (s : State) : (f s).port = s.port := by
  have h : f s = (f s).withPort s.port := hf s s.port
  rw [h, State.withPort_port]

theorem comp {f g : State → State} (hf : PortBlind f) (hg : PortBlind g) : PortBlind (fun s => f (g s)) :=
  fun s ws => (congrArg f (hg s ws)).trans (hf (g s) ws)

theorem gated {f : State → State} (hf : PortBlind f) : PortBlind (gated f) := by
  intro s ws
  rcases gated_cases f s with ⟨hi, h⟩ | ⟨hi, h⟩ <;> rw [h]
  · rw [gated_inited f (by rwa [State.withPort_inited]), hf]
  · exact gated_not_inited f (by rwa [State.withPort_inited])

theorem onOperator (k : BitVec 8) {f : State → Operator → Operator × List Response}
    (hf : ∀ (s : State) (ws : List Word), f (s.withPort ws) = f s) : PortBlind (fun s => s.onOperator k (f s)) := by
  intro s ws
  dsimp only
  rw [hf]
  cases h : s.ops[k.toNat]? with
  | none => rw [State.onOperator_of_none h, State.onOperator_of_none (by rwa [State.withPort_ops])]
  | some op => rw [State.onOperator_of_some h, State.onOperator_of_some (s := s.withPort ws) h]; rfl

theorem writeGlobal (r : GReg) (v : BitVec 32) : PortBlind (fun s => s.writeGlobal r v) := by
  cases r <;> exact fun _ _ => rfl

theorem sampleTick : PortBlind sampleTick := by
  intro s ws
  rcases sampleTick_cases s with ⟨hends, h⟩ | ⟨hends, h⟩ <;> rw [h]
  · exact sampleTick_ends hends
  · exact sampleTick_stuck hends

theorem sampleTicks (n : Nat) : PortBlind (sampleTicks n) := by
  induction n with
  | zero => exact fun _ _ => rfl
  | succ n ih => exact ih.comp .sampleTick

end PortBlind

/-- Every command completes by an update that neither reads nor writes the waiting commands (30_encoding.md R51). -/
theorem exec_portBlind (i : Instr) : ∃ f : State → State, (∀ s, exec i s = .next (f s)) ∧ PortBlind f := by
  cases i with
  | nop => exact ⟨id, fun _ => rfl, fun _ _ => rfl⟩
  | init sr => exact ⟨_, exec_init sr, fun _ _ => rfl⟩
  | wrg sel v =>
    cases h : gregOf sel with
    | none => exact ⟨id, exec_wrg_unnamed h v, fun _ _ => rfl⟩
    | some r => exact ⟨_, exec_wrg_named h v, .gated (.writeGlobal r v)⟩
  | wrp k sel v =>
    cases h : pregOf sel with
    | none => exact ⟨id, exec_wrp_unnamed h k v, fun _ _ => rfl⟩
    | some r => exact ⟨_, exec_wrp_named h k v, .gated (.onOperator k fun _ _ => rfl)⟩
  | wrm k j w =>
    refine ⟨_, exec_wrm k j w, .gated fun s ws => ?_⟩
    have hset := PortBlind.onOperator k (f := fun s op => (op.setWeight s.cfg j.toNat (unitValue w), [])) fun _ _ => rfl
    by_cases hj : j.toNat < s.nops
    · simpa only [State.withPort_nops, hj, if_true] using hset s ws
    · simp only [State.withPort_nops, hj, if_false]
  | noteon => exact ⟨_, exec_noteon, .gated fun _ _ => rfl⟩
  | noteoff => exact ⟨_, exec_noteoff, .gated fun _ _ => rfl⟩
  | tick => exact ⟨_, exec_tick, .gated .sampleTick⟩
  | render n =>
    have hrefresh : PortBlind State.refreshAll := fun _ _ => rfl
    exact ⟨_, exec_render n, .gated ((PortBlind.sampleTicks n.toNat).comp hrefresh)⟩
  | egset k => exact ⟨_, exec_egset k, .gated (.onOperator k fun _ _ => rfl)⟩
  | egon k => exact ⟨_, exec_egon k, .gated (.onOperator k fun _ _ => rfl)⟩
  | egoff k => exact ⟨_, exec_egoff k, .gated (.onOperator k fun _ _ => rfl)⟩
  | egadv k => exact ⟨_, exec_egadv k, .gated (.onOperator k fun _ _ => rfl)⟩
  | dxkey k down => exact ⟨_, exec_dxkey k down, .gated (.onOperator k fun _ _ => rfl)⟩
  | dxupd k => exact ⟨_, exec_dxupd k, .gated (.onOperator k fun _ _ => rfl)⟩
  | dxsmp k n => exact ⟨_, exec_dxsmp k n, .gated (.onOperator k fun _ _ => rfl)⟩

theorem State.issue_of_idle {s : State} (hp : s.port = []) (is : List Instr) : s.issue is = s.withPort (is.map encode) := by
  rw [State.issue, hp, List.nil_append]
  rfl

/-- The step at issued commands executes the first and leaves the others issued. -/
theorem step_issue_cons {i : Instr} (is : List Instr) {s t : State} (hs : s.stuck = false) (hp : s.port = [])
    (hi : i.wellFormed = true) (he : exec i s = .next t) : t.port = [] ∧ step (s.issue (i :: is)) = .next (t.issue is) := by
  obtain ⟨f, hf, hblind⟩ := exec_portBlind i
  obtain rfl : f s = t := Host.Outcome.next.inj ((hf s).symm.trans he)
  have hport : (f s).port = [] := (hblind.port_eq s).trans hp
  refine ⟨hport, ?_⟩
  rw [State.issue_of_idle hp, State.issue_of_idle hport, ← hblind, ← hf]
  exact step_decode hs rfl (decodeOfEncodeIsTheCommand i hi)

/-- Settles O7, by induction on the commands: a stuck block would end stuck, so each step executes the next command. -/
theorem issuedCommandsRunInOrder : Obligations.IssuedCommandsRunInOrder := by
  unfold Obligations.IssuedCommandsRunInOrder
  intro is
  induction is with
  | nil =>
    intro s t hp _ hrun _
    rw [State.issue_of_idle hp, List.map_nil, ← hp, State.withPort_self]
    exact hrun
  | cons i is ih =>
    intro s t hp hwf hrun ht
    obtain ⟨hi, his⟩ := List.forall_mem_cons.mp hwf
    have hs : s.stuck = false := by
      by_contra hstuck
      rw [execAll_stuck _ (Bool.not_eq_false _ ▸ hstuck)] at hrun
      exact hstuck (Host.Outcome.next.inj hrun ▸ ht)
    obtain ⟨u, hu, -⟩ := exec_next_sameInstance i s
    obtain ⟨huport, hstep⟩ := step_issue_cons is hs hp hi hu
    rw [execAll_cons is hs hu] at hrun
    rw [List.length_cons, runSteps, hstep]
    exact ih u t huport his hrun ht

end Sys2Proof.Machine
end

section
/-! PROOFS. What a command appends to the two output streams (30_encoding.md R52). -/

namespace Sys2Proof.Machine

/-- From `s` to `t` the responses `rs` and the samples `ps` are appended, each sample with its platform form
(30_encoding.md R52, 43_operator_mod_mix.md R145). -/
structure State.Appends (s t : State) (rs : List Response) (ps : List Sample) : Prop where
  responses : t.responses = s.responses ++ rs
  samples : t.samples = s.samples ++ ps
  out : ∀ p ∈ ps, p.out = s.cfg.toOut p.mix

namespace State.Appends

theorem nothing {s t : State} (hr : t.responses = s.responses) (hp : t.samples = s.samples) : s.Appends t [] [] where
  responses := by rw [hr, List.append_nil]
  samples := by rw [hp, List.append_nil]
  out := by simp

theorem trans {s t u : State} {rs rs' : List Response} {ps ps' : List Sample} (hst : s.Appends t rs ps)
    (hcfg : t.cfg = s.cfg) (htu : t.Appends u rs' ps') : s.Appends u (rs ++ rs') (ps ++ ps') where
  responses := by rw [htu.responses, hst.responses, List.append_assoc]
  samples := by rw [htu.samples, hst.samples, List.append_assoc]
  out p hp := (List.mem_append.mp hp).elim (hst.out p) fun h => hcfg ▸ htu.out p h

/-- A tick whose loops end appends one sample. -/
theorem ticked (s : State) : s.Appends s.ticked [] [{ mix := s.mix, out := s.cfg.toOut s.mix }] where
  responses := by rw [State.ticked_responses, List.append_nil]
  samples := s.ticked_samples
  out := by simp

end State.Appends

/-! ### the four commands that append -/

/-- Ticks never end a loop that is running. -/
theorem sampleTicks_stuck_of_stuck (n : Nat) {s : State} (h : s.stuck = true) : (sampleTicks n s).stuck = true := by
  induction n generalizing s with
  | zero => exact h
  | succ n ih =>
    refine ih ?_
    rcases sampleTick_cases s with ⟨-, ht⟩ | ⟨-, ht⟩ <;> rw [ht]
    exact h

/-- A number of ticks appends samples only, and one for each tick where every loop ends (44_voice_commands.md R169). -/
theorem sampleTicks_appends (n : Nat) (s : State) :
    ∃ ps, s.Appends (sampleTicks n s) [] ps ∧ (s.cfg.Exact ∨ (sampleTicks n s).stuck = false → ps.length = n) := by
  induction n generalizing s with
  | zero => exact ⟨[], .nothing rfl rfl, fun _ => rfl⟩
  | succ n ih =>
    rcases sampleTick_cases s with ⟨-, ht⟩ | ⟨hends, ht⟩
    · obtain ⟨ps, happ, hlen⟩ := ih s.ticked
      rw [sampleTicks, ht]
      refine ⟨_, (State.Appends.ticked s).trans s.ticked_cfg happ, fun h => ?_⟩
      rw [List.length_append, hlen h, List.length_singleton, Nat.add_comm]
    · rw [sampleTicks_stuck hends]
      refine ⟨[], .nothing rfl rfl, fun h => ?_⟩
      rcases h with hexact | hstuck
      · rw [State.tickEnds_of_exact hexact] at hends
        exact nomatch hends
      · exact nomatch hstuck

/-- Acting on one operator appends what it responds, behind the gate and where the operator exists (30_encoding.md R56). -/
theorem gated_onOperator_appends (k : BitVec 8) (f : State → Operator → Operator × List Response) (s : State) :
    ∃ rs, s.Appends (gated (fun s => s.onOperator k (f s)) s) rs [] ∧
      (s.inited = true → k.toNat < s.nops → ∃ op, rs = (f s op).2) ∧
      (s.inited = false ∨ s.nops ≤ k.toNat → rs = []) := by
  by_cases h : s.inited = true ∧ k.toNat < s.nops
  · obtain ⟨hi, hk⟩ := h
    rw [gated_inited _ hi, State.onOperator_of_some (List.getElem?_eq_getElem hk)]
    refine ⟨_, ⟨rfl, (List.append_nil _).symm, by simp⟩, fun _ _ => ⟨_, rfl⟩, fun h => ?_⟩
    rcases h with h | h
    · simp [hi] at h
    · omega
  · have hsame : gated (fun s => s.onOperator k (f s)) s = s := by
      cases hi : s.inited with
      | true => exact gated_onOperator_out_of_range (not_lt.mp fun hk => h ⟨hi, hk⟩) f
      | false => exact gated_not_inited _ hi
    rw [hsame]
    exact ⟨[], .nothing rfl rfl, fun hi hk => absurd ⟨hi, hk⟩ h, fun _ => rfl⟩

/-! ### the twelve that do not -/

theorem gated_appends_nothing {s : State} {f : State → State} (hf : s.Appends (f s) [] []) : s.Appends (gated f s) [] [] := by
  rcases gated_cases f s with ⟨-, h⟩ | ⟨-, h⟩ <;> rw [h]
  · exact hf
  · exact .nothing rfl rfl

theorem onOperator_silent_appends (s : State) (k : BitVec 8) (f : Operator → Operator) :
    s.Appends (s.onOperator k (fun op => (f op, []))) [] [] :=
  .nothing (s.onOperator_silent_responses k f) (s.onOperator_samples k _)

theorem writeGlobal_appends (s : State) (r : GReg) (v : BitVec 32) : s.Appends (s.writeGlobal r v) [] [] := by
  cases r <;> exact .nothing rfl rfl

/-- Every command but `EGADV`, `DXSMP`, `TICK` and `RENDER` appends nothing (30_encoding.md R52). -/
theorem exec_appends_nothing {i : Instr} (hegadv : ∀ k, i ≠ .egadv k) (hdxsmp : ∀ k n, i ≠ .dxsmp k n)
    (htick : i ≠ .tick) (hrender : ∀ n, i ≠ .render n) (s : State) : ∃ t, exec i s = .next t ∧ s.Appends t [] [] := by
  cases i with
  | egadv k => exact absurd rfl (hegadv k)
  | dxsmp k n => exact absurd rfl (hdxsmp k n)
  | tick => exact absurd rfl htick
  | render n => exact absurd rfl (hrender n)
  | nop => exact ⟨s, rfl, .nothing rfl rfl⟩
  | init sr => exact ⟨_, exec_init sr s, .nothing rfl rfl⟩
  | wrg sel v =>
    cases h : gregOf sel with
    | none => exact ⟨s, exec_wrg_unnamed h v s, .nothing rfl rfl⟩
    | some r => exact ⟨_, exec_wrg_named h v s, gated_appends_nothing (writeGlobal_appends s r v)⟩
  | wrp k sel v =>
    cases h : pregOf sel with
    | none => exact ⟨s, exec_wrp_unnamed h k v s, .nothing rfl rfl⟩
    | some r => exact ⟨_, exec_wrp_named h k v s, gated_appends_nothing (onOperator_silent_appends s k _)⟩
  | wrm k j w =>
    refine ⟨_, exec_wrm k j w s, gated_appends_nothing ?_⟩
    split
    · exact onOperator_silent_appends s k _
    · exact .nothing rfl rfl
  | noteon => exact ⟨_, exec_noteon s, gated_appends_nothing (.nothing rfl rfl)⟩
  | noteoff => exact ⟨_, exec_noteoff s, gated_appends_nothing (.nothing rfl rfl)⟩
  | egset k => exact ⟨_, exec_egset k s, gated_appends_nothing (onOperator_silent_appends s k _)⟩
  | egon k => exact ⟨_, exec_egon k s, gated_appends_nothing (onOperator_silent_appends s k _)⟩
  | egoff k => exact ⟨_, exec_egoff k s, gated_appends_nothing (onOperator_silent_appends s k _)⟩
  | dxkey k down => exact ⟨_, exec_dxkey k down s, gated_appends_nothing (onOperator_silent_appends s k _)⟩
  | dxupd k => exact ⟨_, exec_dxupd k s, gated_appends_nothing (onOperator_silent_appends s k _)⟩

/-! ### the statement, by the command -/

/-- The ticks of a command behind the gate, after a refresh of the operators (44_voice_commands.md R169, R170). -/
theorem gated_sampleTicks_appends (n : Nat) (f : State → State) (s : State) (hf : s.Appends (f s) [] [])
    (hcfg : (f s).cfg = s.cfg) :
    ∃ ps, s.Appends (gated (fun s => sampleTicks n (f s)) s) [] ps ∧
      (s.inited = true → (s.cfg.Exact ∨ (gated (fun s => sampleTicks n (f s)) s).stuck = false) → ps.length = n) ∧
      (s.inited = false → ps = []) := by
  cases hi : s.inited with
  | true =>
    rw [gated_inited _ hi]
    obtain ⟨ps, happ, hlen⟩ := sampleTicks_appends n (f s)
    exact ⟨ps, hf.trans hcfg happ, fun _ h => hlen (by rwa [hcfg]), nofun⟩
  | false =>
    rw [gated_not_inited _ hi]
    exact ⟨[], .nothing rfl rfl, nofun, fun _ => rfl⟩

/-- Which commands append (30_encoding.md R52). -/
theorem appending_or_not (i : Instr) :
    (∃ k, i = .egadv k) ∨ (∃ k n, i = .dxsmp k n) ∨ i = .tick ∨ (∃ n, i = .render n) ∨
    ((∀ k, i ≠ .egadv k) ∧ (∀ k n, i ≠ .dxsmp k n) ∧ i ≠ .tick ∧ ∀ n, i ≠ .render n) := by
  simp only [ne_eq, ← not_exists]
  tauto

/-- Settles O12: the four commands that append, each by its own lemma, and the others. -/
theorem whatEachCommandAppends : Obligations.WhatEachCommandAppends := by
  unfold Obligations.WhatEachCommandAppends
  intro i s
  rcases appending_or_not i with ⟨k, rfl⟩ | ⟨k, n, rfl⟩ | rfl | ⟨n, rfl⟩ | ⟨hegadv, hdxsmp, htick, hrender⟩
  · obtain ⟨rs, ⟨hr, hp, ho⟩, hone, hnone⟩ :=
      gated_onOperator_appends k (fun s op => (op.egAdvance s.cfg, [.real op.eg.level])) s
    refine ⟨_, rs, [], exec_egadv k s, hr, hp, ho, ?_, nofun, nofun, nofun, fun h => absurd rfl (h k), fun _ _ => rfl,
      fun h => ⟨hnone (h.imp_right fun hk => not_lt.mp (of_decide_eq_false hk)), rfl⟩⟩
    rintro _ ⟨⟩ hi hk
    obtain ⟨op, hrs⟩ := hone hi hk
    exact ⟨_, hrs⟩
  · obtain ⟨rs, ⟨hr, hp, ho⟩, hone, hnone⟩ := gated_onOperator_appends k (fun s op =>
      (op.dxSample s.cfg s.g (dxFrames n), [.int (op.dxSample s.cfg s.g (dxFrames n)).dx.level])) s
    refine ⟨_, rs, [], exec_dxsmp k n s, hr, hp, ho, nofun, ?_, nofun, nofun, fun _ h => absurd rfl (h k n),
      fun _ _ => rfl, fun h => ⟨hnone (h.imp_right fun hk => not_lt.mp (of_decide_eq_false hk)), rfl⟩⟩
    rintro _ _ ⟨⟩ hi hk
    obtain ⟨op, hrs⟩ := hone hi hk
    exact ⟨_, hrs⟩
  · obtain ⟨ps, ⟨hr, hp, ho⟩, hlen, hnone⟩ := gated_sampleTicks_appends 1 id s (.nothing rfl rfl) rfl
    exact ⟨_, [], ps, exec_tick s, hr, hp, ho, nofun, nofun, fun _ => hlen, nofun, fun _ _ => rfl, fun h => absurd rfl h,
      fun h => ⟨rfl, hnone (h.resolve_right nofun)⟩⟩
  · obtain ⟨ps, ⟨hr, hp, ho⟩, hlen, hnone⟩ :=
      gated_sampleTicks_appends n.toNat State.refreshAll s (.nothing rfl rfl) rfl
    refine ⟨_, [], ps, exec_render n s, hr, hp, ho, nofun, nofun, nofun, ?_, fun _ _ => rfl, fun _ h => absurd rfl (h n),
      fun h => ⟨rfl, hnone (h.resolve_right nofun)⟩⟩
    rintro _ ⟨⟩
    exact hlen
  · obtain ⟨t, ht, ⟨hr, hp, ho⟩⟩ := exec_appends_nothing hegadv hdxsmp htick hrender s
    exact ⟨t, [], [], ht, hr, hp, ho, fun k h => absurd h (hegadv k), fun k n h => absurd h (hdxsmp k n),
      fun h => absurd h htick, fun n h => absurd h (hrender n), fun _ _ => rfl, fun _ _ => rfl, fun _ => ⟨rfl, rfl⟩⟩

end Sys2Proof.Machine
end

section
/-! PROOFS. What the assembler writes: the pseudo-instructions and the exact Real operands (30_encoding.md R66). -/

namespace Sys2Proof.Machine

/-! ### exact Real operands -/

/-- The 32 bits of `x * 65536`, where that is an integer `k` with `lo ≤ k < hi`. -/
def exactOperand (lo hi : Int) (x : ℚ) : Option (BitVec 32) :=
  let k := x * 65536
  if k.den = 1 ∧ lo ≤ k.num ∧ k.num < hi then some (BitVec.ofInt 32 k.num) else none

theorem asmUq16_eq (x : ℚ) : asmUq16 x = exactOperand 0 (2 ^ 32) x := rfl

theorem asmSq16_eq (x : ℚ) : asmSq16 x = exactOperand (-(2 ^ 31)) (2 ^ 31) x := rfl

theorem den_eq_one_and_num_eq_iff (x : ℚ) (k : Int) :
    ((x * 65536).den = 1 ∧ (x * 65536).num = k) ↔ x = (k : ℚ) / 65536 := by
  rw [eq_div_iff (by norm_num)]
  constructor
  · rintro ⟨hden, rfl⟩
    exact ((Rat.den_eq_one_iff _).mp hden).symm
  · intro h
    rw [h]
    exact ⟨Rat.den_intCast k, Rat.num_intCast k⟩

/-- Where the words stand for the integers from `lo` below `hi`, an operand is accepted exactly as the word that stands for
it. -/
theorem exactOperand_eq_some_iff {lo hi : Int} {value : BitVec 32 → Int} (hrange : ∀ v, lo ≤ value v ∧ value v < hi)
    (hword : ∀ v, BitVec.ofInt 32 (value v) = v) (hvalue : ∀ k, lo ≤ k → k < hi → value (BitVec.ofInt 32 k) = k)
    (x : ℚ) (v : BitVec 32) : exactOperand lo hi x = some v ↔ x = (value v : ℚ) / 65536 := by
  rw [← den_eq_one_and_num_eq_iff, exactOperand, Option.ite_none_right_eq_some, Option.some.injEq]
  constructor
  · rintro ⟨⟨hden, hlo, hhi⟩, rfl⟩
    exact ⟨hden, (hvalue _ hlo hhi).symm⟩
  · rintro ⟨hden, hnum⟩
    rw [hnum]
    exact ⟨⟨hden, hrange v⟩, hword v⟩

/-- Every 32-bit word is an operand in UQ16.16 (30_encoding.md R55, R66). -/
theorem asmUq16_eq_some_iff (x : ℚ) (v : BitVec 32) : asmUq16 x = some v ↔ x = (v.toNat : ℚ) / 65536 := by
  rw [asmUq16_eq, exactOperand_eq_some_iff (value := fun v => (v.toNat : Int)), Int.cast_natCast]
  · exact fun v => by omega
  · exact fun v => by rw [BitVec.ofInt_natCast, BitVec.ofNat_toNat, BitVec.setWidth_eq]
  · intro k hlo hhi
    rw [BitVec.toNat_ofInt]
    omega

/-- Every 32-bit word is an operand in SQ15.16 (30_encoding.md R55, R66). -/
theorem asmSq16_eq_some_iff (x : ℚ) (v : BitVec 32) : asmSq16 x = some v ↔ x = (v.toInt : ℚ) / 65536 := by
  rw [asmSq16_eq]
  refine exactOperand_eq_some_iff (value := BitVec.toInt) (fun v => ⟨v.le_toInt, v.toInt_lt⟩) (fun v => BitVec.ofInt_toInt)
    (fun k hlo hhi => toInt_ofInt_of_fits k ?_) x v
  rw [fitsI32_iff]
  omega

/-! ### the pseudo-instructions -/

theorem expand_wrmrow_length (i : BitVec 8) (ws : List (BitVec 32)) : (Pseudo.wrmrow i ws).expand.length = ws.length :=
  List.length_mapIdx

theorem expand_wrmrow_getElem? (i : BitVec 8) {ws : List (BitVec 32)} {j : Nat} {w : BitVec 32} (h : ws[j]? = some w) :
    (Pseudo.wrmrow i ws).expand[j]? = some (.wrm i (BitVec.ofNat 16 j) w) := by
  rw [Pseudo.expand, List.getElem?_mapIdx, h, Option.map_some]

/-- Settles O60: five expansions are the listed commands, `WRMROW` writes the row weight by weight, and the Real operands. -/
theorem pseudoInstructionsExpand : Obligations.PseudoInstructionsExpand := by
  unfold Obligations.PseudoInstructionsExpand
  exact ⟨fun i a b c d e f g h => ⟨rfl, rfl, rfl, rfl, rfl,
    fun ws => ⟨expand_wrmrow_length i ws, fun _ _ => expand_wrmrow_getElem? i⟩⟩, asmUq16_eq_some_iff, asmSq16_eq_some_iff⟩

end Sys2Proof.Machine
end

section
/-! PROOFS. The rate and level scaling unit (40_scaling.md R70 to R75). -/

namespace Sys2Proof.Machine

/-! ### the output level -/

theorem scaleOutputLevel_of_lt (c : Config) {raw : Fin 100} (h : raw.val < 20) :
    scaleOutputLevel c raw = c.levelLut ⟨raw.val, h⟩ := dif_pos h

theorem scaleOutputLevel_val_of_ge (c : Config) {raw : Fin 100} (h : 20 ≤ raw.val) :
    (scaleOutputLevel c raw).val = 28 + raw.val := by
  rw [scaleOutputLevel, dif_neg h.not_gt]

theorem slev_eq (c : Config) (raw : Fin 100) : slev c raw = c.levelNorm (scaleOutputLevel c raw) := rfl

/-- Settles O23: the branches of `scaleOutputLevel`, and the constraints on `LEVEL_NORM`. -/
theorem outputLevelIsTableThenLine : Obligations.OutputLevelIsTableThenLine := by
  unfold Obligations.OutputLevelIsTableThenLine
  intro n raw
  have hc : (Config.of n).Valid := Config.of_valid n
  obtain ⟨hnonneg, hle_one⟩ := hc.levelNorm_range (scaleOutputLevel (Config.of n) raw)
  exact ⟨scaleOutputLevel_of_lt _, scaleOutputLevel_val_of_ge _, slev_eq _ _, hnonneg, hle_one,
    fun raw' => hc.levelNorm_mono _ (scaleOutputLevel (Config.of n) raw')⟩

/-! ### the rate -/

theorem scaleRate_of_asc (c : Config) (raw : Fin 100) {st en : ℚ} (h : st < en) :
    scaleRate c raw st en = 1 / c.rateConst raw := if_pos (decide_eq_true h)

theorem scaleRate_of_not_asc (c : Config) (raw : Fin 100) {st en : ℚ} (h : ¬ st < en) :
    scaleRate c raw st en = c.rateConst raw :=
  if_neg (by rw [ascending, decide_eq_false h]; exact Bool.false_ne_true)

/-- A multiplier that does not ascend is the rate constant itself, which does not grow with the rate (40_scaling.md R75). -/
theorem scaleRate_antitone_of_not_asc {c : Config} (hc : c.Valid) {r r' : Fin 100} {st en : ℚ} (hr : r ≤ r')
    (h : ¬ st < en) : scaleRate c r' st en ≤ scaleRate c r st en := by
  rw [scaleRate_of_not_asc c r' h, scaleRate_of_not_asc c r h]
  exact hc.rateConst_anti r r' hr

/-- An ascending multiplier is the reciprocal of a positive constant that does not grow with the rate (40_scaling.md R75). -/
theorem scaleRate_monotone_of_asc {c : Config} (hc : c.Valid) {r r' : Fin 100} {st en : ℚ} (hr : r ≤ r')
    (h : st < en) : scaleRate c r st en ≤ scaleRate c r' st en := by
  obtain ⟨hpos, -⟩ := hc.rateConst_range r'
  rw [scaleRate_of_asc c r h, scaleRate_of_asc c r' h]
  exact one_div_le_one_div_of_le hpos (hc.rateConst_anti r r' hr)

/-- The duration is a positive multiple of a power of `8935/10000 < 1`, whatever the segment's levels (40_scaling.md R73). -/
theorem rateToFrames_strictAnti {c : Config} (hc : c.Valid) {r r' : Fin 100} (st en : ℚ) (hr : r < r') :
    rateToFrames c r' st en < rateToFrames c r st en := by
  have hscale : 0 < c.frameK * (19254 / 100) := mul_pos hc.frameK_pos (by norm_num)
  have hpow : (8935 / 10000 : ℚ) ^ r'.val < (8935 / 10000) ^ r.val :=
    pow_lt_pow_right_of_lt_one₀ (by norm_num) (by norm_num) hr
  exact mul_lt_mul_of_pos_left hpow hscale

/-- Settles O22, from the constraints on `RATE_CONST` and `FRAME_K` (40_scaling.md R72, R73). -/
theorem higherRatesReachTheTargetSooner : Obligations.HigherRatesReachTheTargetSooner := by
  unfold Obligations.HigherRatesReachTheTargetSooner
  intro n r r' st en hr
  have hc : (Config.of n).Valid := Config.of_valid n
  exact ⟨scaleRate_antitone_of_not_asc hc hr.le, scaleRate_monotone_of_asc hc hr.le, rateToFrames_strictAnti hc st en hr⟩

end Sys2Proof.Machine
end

section
/-! PROOFS. The DX7-style engine: its four commands on one operator, runs of `EGADV`, the held sustain and the release
(41_eg_dx7.md R80 to R92). -/

namespace Sys2Proof.Machine

/-! ### the four commands on an operator that exists -/

theorem gated_onOperator_of_some {s : State} {k : BitVec 8} {op : Operator} (hi : s.inited = true)
    (hop : s.ops[k.toNat]? = some op) (f : State → Operator → Operator × List Response) :
    gated (fun s => s.onOperator k (f s)) s =
      { s with ops := s.ops.set k.toNat (f s op).1, responses := s.responses ++ (f s op).2 } := by
  rw [gated_inited _ hi, State.onOperator_of_some hop]

theorem gated_onOperator_silent {s : State} {k : BitVec 8} {op : Operator} (hi : s.inited = true)
    (hop : s.ops[k.toNat]? = some op) (f : State → Operator → Operator) :
    gated (fun s => s.onOperator k (fun op => (f s op, []))) s = { s with ops := s.ops.set k.toNat (f s op) } := by
  rw [gated_inited _ hi, State.onOperator_silent hop]

theorem set_getElem?_self {ops : List Operator} {a : Nat} {op : Operator} (hop : ops[a]? = some op) (op' : Operator) :
    (ops.set a op')[a]? = some op' :=
  List.getElem?_set_self (List.getElem?_eq_some_iff.mp hop).1

section
variable {s : State} {k : BitVec 8} {op : Operator}

theorem exec_egset_of_some (hi : s.inited = true) (hop : s.ops[k.toNat]? = some op) :
    exec (.egset k) s = .next { s with ops := s.ops.set k.toNat (op.egRefresh s.cfg) } := by
  rw [exec_egset, gated_onOperator_silent hi hop]

theorem exec_egon_of_some (hi : s.inited = true) (hop : s.ops[k.toNat]? = some op) :
    exec (.egon k) s = .next { s with ops := s.ops.set k.toNat { op with eg := op.eg.noteOn s.cfg } } := by
  rw [exec_egon, gated_onOperator_silent hi hop]

theorem exec_egoff_of_some (hi : s.inited = true) (hop : s.ops[k.toNat]? = some op) :
    exec (.egoff k) s = .next { s with ops := s.ops.set k.toNat { op with eg := op.eg.noteOff } } := by
  rw [exec_egoff, gated_onOperator_silent hi hop]

theorem exec_egadv_of_some (hi : s.inited = true) (hop : s.ops[k.toNat]? = some op) :
    exec (.egadv k) s = .next { s with
      ops := s.ops.set k.toNat (op.egAdvance s.cfg), responses := s.responses ++ [.real op.eg.level] } := by
  rw [exec_egadv, gated_onOperator_of_some hi hop]

end

/-- Settles O24: the table is the one of `buildSteps`, which is built as 41_eg_dx7.md R82 says. -/
theorem egsetBuildsTheStepTable : Obligations.EgsetBuildsTheStepTable := by
  unfold Obligations.EgsetBuildsTheStepTable
  intro s k hi
  exact ⟨fun op hop => ⟨buildSteps s.cfg op.p, exec_egset_of_some hi hop, buildSteps_built s.cfg op.p⟩,
    fun hk => exec_of_not_indexOk (decide_eq_false (not_lt.mpr hk))⟩

/-- Settles O25: the two meanings on an existing operator, and the no-op of an index out of range. -/
theorem egonAttacksAndEgoffReleases : Obligations.EgonAttacksAndEgoffReleases := by
  unfold Obligations.EgonAttacksAndEgoffReleases
  intro s k hi
  refine ⟨fun op hop => ⟨exec_egon_of_some hi hop, exec_egoff_of_some hi hop⟩, fun hk => ?_⟩
  have hout : decide (k.toNat < s.nops) = false := decide_eq_false (not_lt.mpr hk)
  exact ⟨exec_of_not_indexOk hout, exec_of_not_indexOk hout⟩

/-! ### the advance -/

/-- The three advance conditions of 41_eg_dx7.md R86. -/
theorem Seg.done_iff (g : Seg) (f : BitVec 32) (l : ℚ) :
    g.done f l = true ↔ g.dur ≤ (f.toNat : ℚ) ∨ |l - g.endLevel| < egTol ∨
      (if g.asc = true then g.endLevel < l else l < g.endLevel) := by
  cases h : g.asc <;> simp [Seg.done, h, or_assoc]

/-- Settles O26: the two cases of `Eg.advance_cases`, which `Seg.done_iff` tells apart. -/
theorem egadvRespondsThenAdvances : Obligations.EgadvRespondsThenAdvances := by
  unfold Obligations.EgadvRespondsThenAdvances
  intro s k hi
  refine ⟨fun hk => exec_of_not_indexOk (decide_eq_false (not_lt.mpr hk)), fun op hop => ?_⟩
  intro g f l fired
  have hfired : g.done (frameSucc op.eg.frame) op.eg.moved = true ↔ fired := by
    rw [Seg.done_iff, frameSucc_toNat]
    rfl
  refine ⟨op.eg.advance s.cfg, exec_egadv_of_some hi hop, op.eg.advance_step s.cfg, ?_⟩
  rcases op.eg.advance_cases s.cfg with ⟨hcur, hdone, hadv⟩ | ⟨hstay, hadv⟩ <;> rw [hadv]
  · exact ⟨fun _ _ => ⟨rfl, rfl, rfl⟩, fun hnot => absurd (hfired.mp hdone) (hnot.resolve_left hcur)⟩
  · refine ⟨fun hcur hf => ?_, fun _ => ⟨rfl, frameSucc_toNat op.eg.frame, rfl⟩⟩
    exact nomatch (hfired.mpr hf).symm.trans (hstay.resolve_left hcur)

theorem EgStep.next_eq_e4_iff (k : EgStep) : k.next = .e4 ↔ k = .e4 := by
  cases k <;> decide

/-- Settles O27: the five equations of `EgStep.next`. -/
theorem stepGraphHasTwoAbsorbingSteps : Obligations.StepGraphHasTwoAbsorbingSteps := by
  unfold Obligations.StepGraphHasTwoAbsorbingSteps
  exact ⟨rfl, rfl, rfl, rfl, rfl, fun k => k.next_eq_e4_iff.mp⟩

/-! ### runs of `EGADV` -/

/-- `n` times `EGADV` advance the engine `n` times; the responses are the levels it had before each advance. -/
theorem execAll_egadv (k : BitVec 8) (n : Nat) {s : State} {op : Operator} (hs : s.stuck = false) (hi : s.inited = true)
    (hop : s.ops[k.toNat]? = some op) :
    ∃ t op', execAll (List.replicate n (.egadv k)) s = .next t ∧ t.ops[k.toNat]? = some op' ∧
      op'.eg = (Eg.advance s.cfg)^[n] op.eg ∧
      t.responses = s.responses ++ (List.iterate (Eg.advance s.cfg) op.eg n).map (fun e => .real e.level) := by
  induction n generalizing s op with
  | zero => exact ⟨s, op, rfl, hop, rfl, (List.append_nil _).symm⟩
  | succ n ih =>
    rw [List.replicate_succ, execAll_cons _ hs (exec_egadv_of_some hi hop)]
    obtain ⟨t, op', hrun, hop', heg, hresp⟩ := ih (s := { s with
      ops := s.ops.set k.toNat (op.egAdvance s.cfg), responses := s.responses ++ [.real op.eg.level] })
      hs hi (set_getElem?_self hop _)
    refine ⟨t, op', hrun, hop', heg, hresp.trans ?_⟩
    rw [List.append_assoc]
    rfl

/-- Settles O31: `EGON` leaves level `rnd 0`, and a run of one `EGADV` responds it. -/
theorem firstLevelAfterEgonIsZero : Obligations.FirstLevelAfterEgonIsZero := by
  unfold Obligations.FirstLevelAfterEgonIsZero
  intro s k hs hi hk
  have hop : s.ops[k.toNat]? = some s.ops[k.toNat] := List.getElem?_eq_getElem hk
  rw [execAll_cons _ hs (exec_egon_of_some hi hop)]
  obtain ⟨t, -, hrun, -, -, hresp⟩ := execAll_egadv k 1 (s := { s with
    ops := s.ops.set k.toNat { s.ops[k.toNat] with eg := s.ops[k.toNat].eg.noteOn s.cfg } })
    hs hi (set_getElem?_self hop _)
  have hzero : t.responses = s.responses ++ [.real (s.cfg.rnd 0)] := hresp
  exact ⟨t, hrun, hzero, fun hexact => by rw [hzero, hexact]⟩

/-! ### the held sustain (41_eg_dx7.md R91) -/

/-- The sustain step has duration 0, so every advance fires and enters it again at the sustain level. -/
theorem Eg.advance_sustain {c : Config} {e : Eg} (hexact : c.Exact) (hcur : e.cur = .esustain) (hstep : e.step.Legal) :
    e.advance c = { e with frame := 0, level := e.step.e3.endLevel } := by
  obtain ⟨-, hend⟩ := hstep.sustain
  obtain ⟨-, hdur⟩ := hstep.hold
  have hdone : (e.step.get e.cur).done (frameSucc e.frame) e.moved = true := by
    rw [Seg.done_iff, hcur, StepTable.get, hdur]
    exact .inl (Nat.cast_nonneg _)
  rcases e.advance_cases c with ⟨-, -, hadv⟩ | ⟨hstay, -⟩
  · rw [hadv, hexact, hcur, StepTable.get, EgStep.next, hend]
  · rcases hstay with hrelease | hnot
    · exact nomatch hcur.symm.trans hrelease
    · exact nomatch hdone.symm.trans hnot

theorem iterate_eq_replicate_of_fixed {α : Type} {f : α → α} {a : α} (h : f a = a) (n : Nat) :
    List.iterate f a n = List.replicate n a := by
  refine List.eq_replicate_iff.mpr ⟨List.length_iterate f a n, fun b hb => ?_⟩
  obtain ⟨m, -, rfl⟩ := List.mem_iterate.mp hb
  exact Function.iterate_fixed h m

/-- Settles O30: one advance leaves the sustain level, at which the engine is a fixed point of the advance. -/
theorem sustainHoldsItsLevel : Obligations.SustainHoldsItsLevel := by
  unfold Obligations.SustainHoldsItsLevel
  intro s k op n hs hi hop hexact hcur hstep
  obtain ⟨t, op', hrun, hop', heg, hresp⟩ := execAll_egadv k (n + 1) hs hi hop
  have hfirst := Eg.advance_sustain hexact hcur hstep
  have hfixed : ((op.eg.advance s.cfg).advance s.cfg) = op.eg.advance s.cfg := by
    rw [hfirst]
    exact Eg.advance_sustain hexact hcur hstep
  rw [Function.iterate_succ_apply, Function.iterate_fixed hfixed, hfirst] at heg
  refine ⟨t, op', hrun, hop', by rw [heg, hcur], by rw [heg], ?_⟩
  rw [hresp, List.iterate, iterate_eq_replicate_of_fixed hfixed, hfirst, List.map_cons, List.map_replicate]

/-! ### the release (41_eg_dx7.md R88, R89) -/

/-- `E4` never advances to another step (41_eg_dx7.md R88). -/
theorem Eg.advance_release {e : Eg} (c : Config) (hcur : e.cur = .e4) :
    e.advance c = { e with frame := frameSucc e.frame, level := c.rnd (max e.level egEps * e.step.e4.dlDf) } := by
  rcases e.advance_cases c with ⟨hne, -⟩ | ⟨-, hadv⟩
  · exact absurd hcur hne
  · rw [hadv, Eg.moved, hcur, StepTable.get]

/-- The release has fallen to `EPS` or below: the clamp of 41_eg_dx7.md R86 holds every further advance at `T4`. -/
structure Eg.Faded (c : ℚ) (e : Eg) : Prop where
  cur : e.cur = .e4
  delta : e.step.e4.dlDf = c
  level : e.level ≤ egEps

theorem Eg.Faded.advance_level {c : Config} {d : ℚ} {e : Eg} (hexact : c.Exact) (h : e.Faded d) :
    (e.advance c).level = d / 10000 := by
  rw [Eg.advance_release c h.cur, hexact, max_eq_right h.level, h.delta, egEps]
  ring

theorem Eg.Faded.advance {c : Config} {d : ℚ} {e : Eg} (hexact : c.Exact) (hd : d < 1) (h : e.Faded d) :
    (e.advance c).Faded d where
  cur := by rw [Eg.advance_release c h.cur, h.cur]
  delta := by rw [Eg.advance_step, h.delta]
  level := by
    rw [h.advance_level hexact, egEps]
    linarith

theorem Eg.Faded.iterate {c : Config} {d : ℚ} {e : Eg} (hexact : c.Exact) (hd : d < 1) (h : e.Faded d) (n : Nat) :
    ((Eg.advance c)^[n] e).Faded d := by
  induction n generalizing e with
  | zero => exact h
  | succ n ih => exact ih (h.advance hexact hd)

/-- Settles O29: above `EPS` one advance multiplies; from `EPS` or below the engine stays faded, and the last advance of the run
leaves `T4`. -/
theorem releaseEndsAtItsTerminalLevel : Obligations.ReleaseEndsAtItsTerminalLevel := by
  unfold Obligations.ReleaseEndsAtItsTerminalLevel
  intro s k op hs hi hop hexact hcur hpos hlt
  refine ⟨fun hlevel => ?_, fun hlevel n => ?_⟩
  · have hmax : max op.eg.level egEps = op.eg.level := max_eq_left hlevel.le
    have hadv : op.eg.advance s.cfg =
        { op.eg with frame := frameSucc op.eg.frame, level := op.eg.level * op.eg.step.e4.dlDf } := by
      rw [Eg.advance_release s.cfg hcur, hexact, hmax]
    refine ⟨_, _, exec_egadv_of_some hi hop, set_getElem?_self hop _, ?_⟩
    rw [Operator.egAdvance_eg, hadv]
    exact ⟨hcur, rfl, mul_lt_of_lt_one_right (by linarith) hlt⟩
  · obtain ⟨t, op', hrun, hop', heg, -⟩ := execAll_egadv k (n + 1) hs hi hop
    have hfaded : ((Eg.advance s.cfg)^[n] op.eg).Faded op.eg.step.e4.dlDf :=
      Eg.Faded.iterate hexact hlt ⟨hcur, rfl, hlevel⟩ n
    rw [Function.iterate_succ_apply'] at heg
    exact ⟨t, op', hrun, hop', heg ▸ (hfaded.advance hexact hlt).cur, heg ▸ hfaded.advance_level hexact⟩

end Sys2Proof.Machine
end

section
/-! PROOFS. Operator by operator, what keeps the release step `E4` of the DX7-style engine (41_eg_dx7.md R80, R88). -/

namespace Sys2Proof.Machine

/-- Operator `a` exists and its DX7-style engine is in the release step. -/
def State.Released (s : State) (a : Nat) : Prop := ∃ op, s.ops[a]? = some op ∧ op.eg.cur = .e4

/-- An update of an operator that leaves its engine in the release step. -/
def KeepsRelease (f : Operator → Operator) : Prop := ∀ op, op.eg.cur = .e4 → (f op).eg.cur = .e4

/-! ### updates of one operator -/

theorem Operator.egAdvance_keepsRelease (c : Config) : KeepsRelease (fun op => op.egAdvance c) := fun op h => by
  rw [Operator.egAdvance_eg, Eg.advance_release c h, h]

theorem Operator.refresh_keepsRelease (c : Config) (v : Variant) (g : Globals) :
    KeepsRelease (fun op => op.refresh c v g) := fun op h => by
  cases v <;> simp only [Operator.refresh] <;> split <;> exact h

theorem Operator.noteOff_keepsRelease (c : Config) (v : Variant) (g : Globals) :
    KeepsRelease (fun op => op.noteOff c v g) := fun op h => by
  cases v with
  | fm => rfl
  | sw => exact h

/-- The key press of the `SW` variant is one of the other engine (44_voice_commands.md R163). -/
theorem Operator.noteOn_keepsRelease (c : Config) {v : Variant} (hv : v ≠ .fm) (g : Globals) :
    KeepsRelease (fun op => op.noteOn c v g) := fun op h => by
  cases v with
  | fm => exact absurd rfl hv
  | sw => exact h

theorem State.tickOperator_eg (s : State) (i : Nat) (op : Operator) :
    (s.tickOperator i op).eg = (op.stepEngine s.cfg s.variant s.g).eg := by
  rw [State.tickOperator, Operator.setPrev]
  split <;> rfl

theorem State.tickOperator_keepsRelease (s : State) (i : Nat) : KeepsRelease (s.tickOperator i) := fun op h => by
  rw [State.tickOperator_eg]
  cases s.variant with
  | fm => exact Operator.egAdvance_keepsRelease s.cfg op h
  | sw => exact h

/-! ### operations over the state -/

namespace State.Released

variable {s : State} {a : Nat}

theorem gated {f : State → State} (hf : (f s).Released a) (h : s.Released a) : (gated f s).Released a := by
  rcases gated_cases f s with ⟨-, hg⟩ | ⟨-, hg⟩ <;> rw [hg]
  · exact hf
  · exact h

theorem onAll {f : Operator → Operator} (hf : KeepsRelease f) (h : s.Released a) : (s.onAll f).Released a := by
  obtain ⟨op, hop, hcur⟩ := h
  exact ⟨f op, by rw [State.onAll_getElem?, hop, Option.map_some], hf op hcur⟩

theorem onOperator_other {k : BitVec 8} (hk : k.toNat ≠ a) (f : Operator → Operator × List Response)
    (h : s.Released a) : (s.onOperator k f).Released a := by
  obtain ⟨op, hop, hcur⟩ := h
  exact ⟨op, by rw [State.onOperator_getElem?, if_neg hk.symm, hop], hcur⟩

theorem onOperator (k : BitVec 8) {f : Operator → Operator × List Response} (hf : KeepsRelease (fun op => (f op).1))
    (h : s.Released a) : (s.onOperator k f).Released a := by
  by_cases hk : k.toNat = a
  · obtain ⟨op, hop, hcur⟩ := h
    exact ⟨(f op).1, by rw [State.onOperator_getElem?, if_pos hk.symm, hop, Option.map_some], hf op hcur⟩
  · exact h.onOperator_other hk f

theorem initialise (sr : BitVec 32) (h : s.Released a) : (s.initialise sr).Released a := by
  obtain ⟨op, hop, -⟩ := h
  have ha : a < s.nops := (List.getElem?_eq_some_iff.mp hop).1
  exact ⟨Operator.initial s.cfg s.nops, by rw [State.initialise_ops, List.getElem?_replicate, if_pos ha], rfl⟩

theorem writeGlobal (r : GReg) (v : BitVec 32) (h : s.Released a) : (s.writeGlobal r v).Released a := by
  cases r with
  | f0all => exact h.onAll fun _ hcur => hcur
  | route => exact h
  | fbamt => exact h
  | maxenv => exact State.Released.onAll (fun _ hcur => hcur) h

theorem sampleTick (h : s.Released a) : (sampleTick s).Released a := by
  rcases sampleTick_cases s with ⟨-, ht⟩ | ⟨-, ht⟩ <;> rw [ht]
  · obtain ⟨op, hop, hcur⟩ := h
    exact ⟨s.tickOperator a op, by rw [State.ticked_getElem?, hop, Option.map_some], s.tickOperator_keepsRelease a op hcur⟩
  · exact h

theorem sampleTicks (n : Nat) (h : s.Released a) : (sampleTicks n s).Released a := by
  induction n generalizing s with
  | zero => exact h
  | succ n ih => exact ih h.sampleTick

end State.Released

/-! ### the commands -/

/-- Every command but `EGON` of the operator and the `NOTEON` of the `FM` variant keeps the release (41_eg_dx7.md R88). -/
theorem exec_keeps_released {i : Instr} {s : State} {a : Nat} (hegon : ∀ k, i = .egon k → k.toNat ≠ a)
    (hnoteon : i = .noteon → s.variant ≠ .fm) (h : s.Released a) : ∃ t, exec i s = .next t ∧ t.Released a := by
  cases i with
  | nop => exact ⟨s, rfl, h⟩
  | init sr => exact ⟨_, exec_init sr s, h.initialise sr⟩
  | wrg sel v =>
    cases hr : gregOf sel with
    | none => exact ⟨s, exec_wrg_unnamed hr v s, h⟩
    | some r => exact ⟨_, exec_wrg_named hr v s, .gated (h.writeGlobal r v) h⟩
  | wrp k sel v =>
    cases hr : pregOf sel with
    | none => exact ⟨s, exec_wrp_unnamed hr k v s, h⟩
    | some r => exact ⟨_, exec_wrp_named hr k v s, .gated (h.onOperator k fun _ hcur => hcur) h⟩
  | wrm k j w =>
    refine ⟨_, exec_wrm k j w s, .gated ?_ h⟩
    split
    · exact h.onOperator k fun _ hcur => hcur
    · exact h
  | noteon => exact ⟨_, exec_noteon s, .gated (h.onAll (Operator.noteOn_keepsRelease s.cfg (hnoteon rfl) s.g)) h⟩
  | noteoff => exact ⟨_, exec_noteoff s, .gated (h.onAll (Operator.noteOff_keepsRelease s.cfg s.variant s.g)) h⟩
  | tick => exact ⟨_, exec_tick s, .gated h.sampleTick h⟩
  | render n =>
    have hrefresh : s.refreshAll.Released a := h.onAll (Operator.refresh_keepsRelease s.cfg s.variant s.g)
    exact ⟨_, exec_render n s, .gated (hrefresh.sampleTicks n.toNat) h⟩
  | egset k => exact ⟨_, exec_egset k s, .gated (h.onOperator k fun _ hcur => hcur) h⟩
  | egon k => exact ⟨_, exec_egon k s, .gated (h.onOperator_other (hegon k rfl) _) h⟩
  | egoff k => exact ⟨_, exec_egoff k s, .gated (h.onOperator k fun _ _ => rfl) h⟩
  | egadv k => exact ⟨_, exec_egadv k s, .gated (h.onOperator k (Operator.egAdvance_keepsRelease s.cfg)) h⟩
  | dxkey k down => exact ⟨_, exec_dxkey k down s, .gated (h.onOperator k fun _ hcur => hcur) h⟩
  | dxupd k => exact ⟨_, exec_dxupd k s, .gated (h.onOperator k fun _ hcur => hcur) h⟩
  | dxsmp k n => exact ⟨_, exec_dxsmp k n s, .gated (h.onOperator k fun _ hcur => hcur) h⟩

/-- Settles O28: any other command keeps the release, by `exec_keeps_released`. -/
theorem releaseIsLeftOnlyByANoteOn : Obligations.ReleaseIsLeftOnlyByANoteOn := by
  unfold Obligations.ReleaseIsLeftOnlyByANoteOn
  intro i s t a op op' hexec hop hop' hcur hleft
  by_contra hother
  obtain ⟨hegon, hnoteon⟩ := not_or.mp hother
  obtain ⟨u, hu, op'', hop'', hcur''⟩ :=
    exec_keeps_released (fun k hi hk => hegon ⟨k, hi, hk⟩) (fun hi hv => hnoteon ⟨hi, hv⟩) ⟨op, hop, hcur⟩
  obtain rfl : u = t := Host.Outcome.next.inj (hu.symm.trans hexec)
  obtain rfl : op'' = op' := Option.some.inj (hop''.symm.trans hop')
  exact hleft hcur''

end Sys2Proof.Machine
end

section
/-! PROOFS. The Dexed-style engine's hold counts, targets and increments, and their bounds (42_eg_dexed.md R102, R104, R105,
R113). -/

namespace Sys2Proof.Machine

/-! ### targets and hold counts -/

/-- Settles O32: the level register of the pair, and a target that fits Int32 is stored as it is. -/
theorem stageTargetFollowsTheLevelRegister : Obligations.StageTargetFollowsTheLevelRegister := by
  unfold Obligations.StageTargetFollowsTheLevelRegister
  intro c g p s
  refine ⟨p.dxLevel s, p.read_dxLevel s, ?_⟩
  intro a hfits
  have hfloor : 16 ≤ a := le_max_right _ _
  rw [dxTarget_eq]
  exact toI32_toInt c .target _ ((fitsI32_iff _).mpr ⟨by omega, hfits⟩)

theorem dxHoldCount_of_lt (c : Config) {r : Fin 100} (h : r.val < 77) : dxHoldCount c r = (c.dxStatic ⟨r.val, h⟩).toNat :=
  dif_pos h

theorem dxHoldCount_of_ge (c : Config) {r : Fin 100} (h : 77 ≤ r.val) : dxHoldCount c r = 20 * (99 - r.val) :=
  dif_neg h.not_gt

/-- The exact hold count of a rate: the unscaled one times `SRMULT`, a Q24 product (42_eg_dexed.md R105). -/
def scaledHold (c : Config) (g : Globals) (r : Fin 100) : Int := asr ((dxHoldCount c r : Int) * g.srmult.toInt) 24

theorem scaledHold_eq (c : Config) (g : Globals) (r : Fin 100) :
    scaledHold c g r = (dxHoldCount c r : Int) * g.srmult.toInt / 16777216 := rfl

theorem dxHold_toInt {c : Config} {g : Globals} {r : Fin 100} (h : fitsI32 (scaledHold c g r) = true) :
    (dxHold c g r).toInt = scaledHold c g r := by
  unfold dxHold
  rw [← scaledHold, if_pos h, toInt_ofInt_of_fits _ h]

theorem scaledHold_nonneg (c : Config) {g : Globals} (hg : 0 ≤ g.srmult.toInt) (r : Fin 100) : 0 ≤ scaledHold c g r :=
  Int.ediv_nonneg (mul_nonneg (Int.natCast_nonneg _) hg) (by norm_num)

/-- Settles O33: `n` is the unscaled count on both sides of 77, and the scaled one fits Int32. -/
theorem holdCountIsScaledFromTheTable : Obligations.HoldCountIsScaledFromTheTable := by
  unfold Obligations.HoldCountIsScaledFromTheTable
  intro c g r n htable hline hg hfits
  obtain rfl : dxHoldCount c r = n := by
    rcases lt_or_ge r.val 77 with h | h
    · rw [dxHoldCount_of_lt c h, htable h]
    · rw [dxHoldCount_of_ge c h, hline h]
  have hnonneg := scaledHold_nonneg c hg r
  rw [← scaledHold_eq] at hfits ⊢
  exact dxHold_toInt ((fitsI32_iff _).mpr ⟨by omega, hfits⟩)

/-! ### the bounds of 42_eg_dexed.md R113 b -/

/-- The global registers of `State.DxBounded`: `MAXENV` at most 4064 and `SRMULT` not negative (42_eg_dexed.md R113). -/
structure Globals.DxBounded (g : Globals) : Prop where
  maxenv : g.maxenv.toNat ≤ 4064
  srmult : 0 ≤ g.srmult.toInt

section
variable {c : Config} {g : Globals} (hc : c.WithinInt32) (hg : g.DxBounded)

include hc in
theorem dxHoldCount_le (r : Fin 100) : dxHoldCount c r ≤ 1764000 := by
  rcases lt_or_ge r.val 77 with h | h
  · rw [dxHoldCount_of_lt c h]
    exact hc.dxStatic _
  · rw [dxHoldCount_of_ge c h]
    omega

include hc hg in
/-- `1764000 * 2^31 / 2^24 = 225792000`. -/
theorem scaledHold_le (r : Fin 100) : scaledHold c g r ≤ 225792000 := by
  have hcount : (dxHoldCount c r : Int) ≤ 1764000 := by exact_mod_cast dxHoldCount_le hc r
  have hmult : g.srmult.toInt ≤ 2147483648 := g.srmult.toInt_lt.le
  have hproduct : (dxHoldCount c r : Int) * g.srmult.toInt ≤ 1764000 * 2147483648 :=
    mul_le_mul hcount hmult hg.srmult (by norm_num)
  rw [scaledHold_eq]
  omega

include hc hg in
theorem scaledHold_fits (r : Fin 100) : fitsI32 (scaledHold c g r) = true := by
  have hnonneg := scaledHold_nonneg c hg.srmult r
  have hle := scaledHold_le hc hg r
  exact (fitsI32_iff _).mpr ⟨by omega, by omega⟩

include hc hg in
theorem dxHold_bounds (r : Fin 100) : 0 ≤ (dxHold c g r).toInt ∧ (dxHold c g r).toInt ≤ 225792000 := by
  rw [dxHold_toInt (scaledHold_fits hc hg r)]
  exact ⟨scaledHold_nonneg c hg.srmult r, scaledHold_le hc hg r⟩

include hg in
/-- `127 / 2 * 64 + 4064 - 4256 = 3840`, and the floor of 42_eg_dexed.md R102. -/
theorem dxTargetUnits_bounds (level : Fin 100) : 16 ≤ dxTargetUnits c g level ∧ dxTargetUnits c g level ≤ 3840 := by
  have hscaled : (scaleOutputLevel c level).val ≤ 127 := Nat.le_of_lt_succ (scaleOutputLevel c level).isLt
  have hmaxenv : g.maxenv.toNat ≤ 4064 := hg.maxenv
  rw [dxTargetUnits_eq]
  omega

include hg in
theorem shl_dxTargetUnits_bounds (level : Fin 100) :
    1048576 ≤ shl (dxTargetUnits c g level) 16 ∧ shl (dxTargetUnits c g level) 16 ≤ 251658240 := by
  obtain ⟨hlow, hhigh⟩ := dxTargetUnits_bounds (c := c) hg level
  unfold shl
  omega

include hg in
theorem shl_dxTargetUnits_fits (level : Fin 100) : fitsI32 (shl (dxTargetUnits c g level) 16) = true := by
  obtain ⟨hlow, hhigh⟩ := shl_dxTargetUnits_bounds (c := c) hg level
  exact (fitsI32_iff _).mpr ⟨by omega, by omega⟩

include hg in
theorem dxTarget_bounds (p : Params) (s : Fin 4) :
    1048576 ≤ (dxTarget c g p s).toInt ∧ (dxTarget c g p s).toInt ≤ 251658240 := by
  rw [dxTarget, toI32_toInt c .target _ (shl_dxTargetUnits_fits hg _)]
  exact shl_dxTargetUnits_bounds hg _

include hc in
theorem dxIncrement_bounds (r : Fin 100) : 0 ≤ (dxIncrement c g r).toInt ∧ (dxIncrement c g r).toInt ≤ 117440512 := by
  have hle := hc.dxInc (rateClass r) g.srmult
  rw [dxIncrement, U31.toI32_toInt]
  omega

end

namespace Dx.Bounded

variable {c : Config} {d : Dx}

/-- What `DX_RISE` gives at a bounded engine is at most the largest Int32 (42_eg_dexed.md R113 b). -/
theorem dxRise_le (hc : c.WithinInt32) (h : d.Bounded 251658240) (hinc : 1 ≤ d.inc.toInt) :
    c.dxRise d.level d.inc ≤ 2147483647 := by
  obtain ⟨hlevel₀, hlevel⟩ := h.level
  obtain ⟨-, hinc'⟩ := h.inc
  exact hc.dxRise d.level d.inc hlevel₀ hlevel hinc hinc'

theorem dxRise_fits (hvalid : c.Valid) (hc : c.WithinInt32) (h : d.Bounded 251658240) (hinc : 1 ≤ d.inc.toInt) :
    fitsI32 (c.dxRise d.level d.inc) = true := by
  obtain ⟨hlevel₀, hlevel⟩ := h.level
  have hrises : d.level.toInt < c.dxRise d.level d.inc := hvalid.dxRise_gt d.level d.inc hinc (by unfold shl; omega)
  exact (fitsI32_iff _).mpr ⟨by omega, h.dxRise_le hc hinc⟩

theorem fall_fits (h : d.Bounded 251658240) : fitsI32 (d.level.toInt - d.inc.toInt) = true := by
  obtain ⟨hlevel₀, hlevel⟩ := h.level
  obtain ⟨hinc₀, hinc⟩ := h.inc
  exact (fitsI32_iff _).mpr ⟨by omega, by omega⟩

end Dx.Bounded

/-! ### the candidates of CFG_T meet those bounds -/

/-- The candidate's factor is at most `7 << 17`, and `SRMULT` below `2^31` (42_eg_dexed.md R104). -/
theorem candDxInc_toNat_le (q : Fin 64) (m : I32) : (candDxInc q m).toNat ≤ 117440512 := by
  have hfactor : (4 + (q.val &&& 3)) <<< (2 + (q.val >>> 2)) ≤ 917504 := by
    revert q
    decide
  rw [candDxInc, BitVec.toNat_ofNat]
  refine (Nat.mod_le _ _).trans ?_
  generalize (4 + (q.val &&& 3)) <<< (2 + (q.val >>> 2)) = a at hfactor ⊢
  have hproduct : (a : Int) * m.toInt ≤ (a : Int) * 2147483648 :=
    mul_le_mul_of_nonneg_left m.toInt_lt.le (Int.natCast_nonneg a)
  unfold asr
  omega

theorem candDxStatic_toNat_le (r : Fin 77) : (candDxStatic r).toNat ≤ 1764000 := by
  revert r
  decide

/-- The candidate raises a level of at least `1716 << 16` by at most ten increments (42_eg_dexed.md R108). -/
theorem candDxRise_le {x inc : I32} (hx : x.toInt ≤ 251658240) (hinc₀ : 0 ≤ inc.toInt) (hinc : inc.toInt ≤ 117440512) :
    candDxRise x inc ≤ 2147483647 := by
  unfold candDxRise asr shl
  dsimp only
  generalize hy : (if x.toInt < 1716 * 2 ^ 16 then 1716 * 2 ^ 16 else x.toInt) = y
  have hbounds : 112459776 ≤ y ∧ y ≤ 251658240 := by
    rw [← hy]
    split <;> omega
  have hfactor : (17 * 2 ^ 24 - y) / 2 ^ 24 ≤ 10 := by omega
  have hraise : (17 * 2 ^ 24 - y) / 2 ^ 24 * inc.toInt ≤ 10 * 117440512 := mul_le_mul hfactor hinc hinc₀ (by norm_num)
  omega

theorem Config.cfgT_withinInt32 : Config.cfgT.WithinInt32 where
  maxEnvMax := le_rfl
  dxInc := candDxInc_toNat_le
  dxStatic := candDxStatic_toNat_le
  dxRise _ _ _ hx hinc₁ hinc := candDxRise_le hx (by omega) hinc

/-- Settles O42: CFG_T meets the bounds, and a value by value account of 42_eg_dexed.md R113 b. -/
theorem candidateValuesFitInt32 : Obligations.CandidateValuesFitInt32 := by
  unfold Obligations.CandidateValuesFitInt32
  refine ⟨Config.cfgT_withinInt32, fun c g p d hvalid hc hmaxenv hsrmult hd => ?_⟩
  have hg : g.DxBounded := ⟨hmaxenv, hsrmult⟩
  exact ⟨scaledHold_fits hc hg, fun s => shl_dxTargetUnits_fits hg _, hd.dxRise_fits hvalid hc, hd.fall_fits⟩

end Sys2Proof.Machine
end

section
/-! PROOFS. `DXKEY`, `DXUPD` and `DXSMP` on one operator: the stage each enters, and what it leaves (42_eg_dexed.md R106, R107,
R110). -/

namespace Sys2Proof.Machine

section
variable {s : State} {k : BitVec 8} {op : Operator}

theorem exec_dxkey_of_some (hi : s.inited = true) (hop : s.ops[k.toNat]? = some op) (down : Bool) :
    exec (.dxkey k down) s =
      .next { s with ops := s.ops.set k.toNat { op with dx := op.dx.key s.cfg s.g op.p down } } := by
  rw [exec_dxkey, gated_onOperator_silent hi hop]
  rfl

theorem exec_dxupd_of_some (hi : s.inited = true) (hop : s.ops[k.toNat]? = some op) :
    exec (.dxupd k) s = .next { s with
      ops := s.ops.set k.toNat { op with dx := op.dx.update s.cfg s.g op.p, dxDirty := false } } := by
  rw [exec_dxupd, gated_onOperator_silent hi hop]
  rfl

/-- `DXSMP` answers the level its update leaves (42_eg_dexed.md R107). -/
theorem exec_dxsmp_of_some (hi : s.inited = true) (hop : s.ops[k.toNat]? = some op) (n : BitVec 32) {d : Dx}
    (hd : op.dx.sample s.cfg s.g op.p (dxFrames n) = d) :
    exec (.dxsmp k n) s = .next { s with
      ops := s.ops.set k.toNat { op with dx := d }, responses := s.responses ++ [.int d.level] } := by
  rw [exec_dxsmp, gated_onOperator_of_some hi hop, ← hd]
  rfl

end

/-! ### the key and the refresh -/

/-- Settles O34: on a transition `Dx.key` enters the stage, otherwise it keeps the engine. -/
theorem dxkeyActsOnlyOnATransition : Obligations.DxkeyActsOnlyOnATransition := by
  unfold Obligations.DxkeyActsOnlyOnATransition
  intro s k down hi
  refine ⟨fun hk => exec_of_not_indexOk (decide_eq_false (not_lt.mpr hk)), fun op hop => ?_⟩
  refine ⟨_, exec_dxkey_of_some hi hop down, ?_, fun hne => ?_⟩
  · rintro rfl
    exact Dx.key_same ..
  · rw [Dx.key_change _ _ _ hne]
    have hentered := Dx.enter_entered s.cfg s.g op.p { op.dx with down := down } (if down then 0 else 3)
    cases down <;> exact hentered

/-- Settles O35: in the held sustain `Dx.update` enters stage 2, elsewhere it keeps the engine. -/
theorem dxupdActsOnlyInTheHeldSustain : Obligations.DxupdActsOnlyInTheHeldSustain := by
  unfold Obligations.DxupdActsOnlyInTheHeldSustain
  intro s k hi
  refine ⟨fun hk => exec_of_not_indexOk (decide_eq_false (not_lt.mpr hk)), fun op hop => ?_⟩
  refine ⟨_, exec_dxupd_of_some hi hop, fun hheld => ?_, Dx.update_other s.cfg s.g op.p⟩
  rw [Dx.update_held _ _ _ hheld]
  exact Dx.enter_entered s.cfg s.g op.p op.dx 2

/-! ### the sample update (42_eg_dexed.md R107) -/

namespace Dx

section
variable (c : Config) (g : Globals) (p : Params) {d : Dx} (n : Nat)

theorem sample_of_hold (h : 0 < d.staticcount.toInt) : d.sample c g p n = d.holdStep c g p n := if_pos h

theorem sample_of_rising (hhold : d.staticcount.toInt ≤ 0) (hmoving : d.moving = true) (hrising : d.rising = true) :
    d.sample c g p n = d.riseStep c g p := by
  rw [sample, if_neg hhold.not_gt, if_pos hmoving, if_pos hrising]

theorem sample_of_falling (hhold : d.staticcount.toInt ≤ 0) (hmoving : d.moving = true) (hrising : d.rising = false) :
    d.sample c g p n = d.fallStep c g p := by
  rw [sample, if_neg hhold.not_gt, if_pos hmoving, if_neg (hrising ▸ Bool.false_ne_true)]

theorem sample_of_resting (hhold : d.staticcount.toInt ≤ 0) (hmoving : d.moving = false) : d.sample c g p n = d := by
  rw [sample, if_neg hhold.not_gt, if_neg (hmoving ▸ Bool.false_ne_true)]

/-- The hold runs out: the next stage is entered. -/
theorem holdStep_of_le (h : d.staticcount.toInt - n ≤ 0) :
    d.holdStep c g p n = enter c g p { d with staticcount := 0 } (stageSucc d.ix) := if_pos h

/-- The hold goes on: only the count changes. -/
theorem holdStep_of_lt (h : 0 < d.staticcount.toInt - n) :
    ∃ x : I32, x.toInt = d.staticcount.toInt - n ∧ d.holdStep c g p n = { d with staticcount := x } := by
  have hlt := d.staticcount.toInt_lt
  refine ⟨BitVec.ofInt 32 (d.staticcount.toInt - n), toInt_ofInt_of_fits _ ?_, if_neg h.not_ge⟩
  exact (fitsI32_iff _).mpr ⟨by omega, by omega⟩

/-- A hold does not update the level. -/
theorem holdStep_level : (d.holdStep c g p n).level = d.level := by
  rcases le_or_gt (d.staticcount.toInt - n) 0 with h | h
  · rw [holdStep_of_le c g p n h, (enter_entered ..).level]
  · obtain ⟨x, -, hstep⟩ := holdStep_of_lt c g p n h
    rw [hstep]

theorem land_entered_succ (hix : d.ix.val ≤ 3) :
    StageEntered c g p { d with level := d.target } (d.land c g p) (d.ix.val + 1) :=
  stageSucc_val hix ▸ land_entered c g p d

end

theorem ix_le_three_of_moving {d : Dx} (h : d.moving = true) : d.ix.val ≤ 3 := by
  rw [moving_iff] at h
  omega

theorem not_moving_iff (d : Dx) : d.moving = false ↔ d.ix.val = 4 ∨ (d.ix.val = 3 ∧ d.down = true) := by
  have hlt := d.ix.isLt
  rw [← Bool.not_eq_true, moving_iff]
  cases d.down <;> simp <;> omega

/-- A rise never leaves the level below the one it had, so it fits Int32 where it is not too large (42_eg_dexed.md R113 d). -/
theorem risen_toInt {c : Config} {d : Dx} (h : d.risen c ≤ 2147483647) : (toI32 c .rise (d.risen c)).toInt = d.risen c := by
  have hlevel : d.level.toInt ≤ d.risen c := le_max_left _ _
  have hmin := d.level.le_toInt
  exact toI32_toInt c .rise _ ((fitsI32_iff _).mpr ⟨by omega, h⟩)

end Dx

/-- Settles O36: the two branches of `Dx.holdStep`, which keeps the level. -/
theorem dxsmpCountsAHoldDown : Obligations.DxsmpCountsAHoldDown := by
  unfold Obligations.DxsmpCountsAHoldDown
  intro s k n op hi hop hhold hix left
  have hleft : left = op.dx.staticcount.toInt - dxFrames n := rfl
  have hexec := exec_dxsmp_of_some hi hop n (Dx.sample_of_hold s.cfg s.g op.p (dxFrames n) hhold)
  rw [Dx.holdStep_level] at hexec
  refine ⟨_, hexec, fun hout => ?_, fun hgoes => Dx.holdStep_of_lt _ _ _ _ (hleft ▸ hgoes)⟩
  rw [Dx.holdStep_of_le _ _ _ _ (hleft ▸ hout), ← stageSucc_val hix]
  exact Dx.enter_entered ..

/-- Settles O37: the cases of `Dx.riseStep_cases` where the risen level is stored as it is. -/
theorem dxsmpRisesToTheTarget : Obligations.DxsmpRisesToTheTarget := by
  unfold Obligations.DxsmpRisesToTheTarget
  intro s k n op hi hop hhold hstage hrising hinc rise x hfits
  have hmoving : op.dx.moving = true := op.dx.moving_iff.mpr hstage
  have hstored : (toI32 s.cfg .rise (op.dx.risen s.cfg)).toInt = x := Dx.risen_toInt hfits
  have hexec := exec_dxsmp_of_some hi hop n (Dx.sample_of_rising s.cfg s.g op.p _ hhold hmoving hrising)
  have hstuck := Dx.riseStep_stuck (c := s.cfg) (d := op.dx) s.g op.p
  rcases op.dx.riseStep_cases s.cfg s.g op.p with ⟨hzero, -⟩ | ⟨-, hreached, hstep⟩ | ⟨-, hbelow, hstep⟩
  · exact absurd hzero hinc
  · rw [hstored] at hreached
    have hlanded := Dx.land_entered_succ s.cfg s.g op.p (Dx.ix_le_three_of_moving hmoving)
    exact ⟨_, hexec, fun _ => hstep ▸ hlanded, fun hx => absurd hx hreached.not_gt, hstuck⟩
  · rw [hstored] at hbelow
    exact ⟨_, hexec, fun hx => absurd hx hbelow.not_ge, fun _ => ⟨_, hstored, hstep⟩, hstuck⟩

/-- Settles O38: the cases of `Dx.fallStep_cases` where the difference is stored as it is. -/
theorem dxsmpFallsToTheTarget : Obligations.DxsmpFallsToTheTarget := by
  unfold Obligations.DxsmpFallsToTheTarget
  intro s k n op hi hop hhold hstage hrising x hmax hmin
  have hmoving : op.dx.moving = true := op.dx.moving_iff.mpr hstage
  have hstored : (toI32 s.cfg .fall (op.dx.level.toInt - op.dx.inc.toInt)).toInt = x :=
    toI32_toInt _ _ _ ((fitsI32_iff x).mpr ⟨hmin, hmax⟩)
  have hexec := exec_dxsmp_of_some hi hop n (Dx.sample_of_falling s.cfg s.g op.p _ hhold hmoving hrising)
  rcases op.dx.fallStep_cases s.cfg s.g op.p with ⟨hreached, hstep⟩ | ⟨habove, hstep⟩
  · rw [hstored] at hreached
    have hlanded := Dx.land_entered_succ s.cfg s.g op.p (Dx.ix_le_three_of_moving hmoving)
    exact ⟨_, hexec, fun _ => hstep ▸ hlanded, fun hx => absurd hx hreached.not_gt⟩
  · rw [hstored] at habove
    exact ⟨_, hexec, fun hx => absurd hx habove.not_ge, fun _ => ⟨_, hstored, hstep⟩⟩

/-- Settles O40: neither stage moves, so the engine is written back as it is. -/
theorem dxsmpRestsInSustainAndStageFour : Obligations.DxsmpRestsInSustainAndStageFour := by
  unfold Obligations.DxsmpRestsInSustainAndStageFour
  intro s k n op hi hop hhold hstage
  have hresting : op.dx.moving = false := op.dx.not_moving_iff.mpr hstage
  rw [exec_dxsmp_of_some hi hop n (Dx.sample_of_resting s.cfg s.g op.p _ hhold hresting)]
  obtain ⟨hlt, hget⟩ := List.getElem?_eq_some_iff.mp hop
  have hsame : s.ops.set k.toNat { op with dx := op.dx } = s.ops := by rw [← hget, List.set_getElem_self]
  rw [hsame]

end Sys2Proof.Machine
end

section
/-! PROOFS. Everything a command can do to an operator's Dexed-style engine, and what follows from it: stage 4 is left by a key
event only (42_eg_dexed.md R111), and the bounds of R113 are kept. -/

namespace Sys2Proof.Machine

/-! ### runs of the engine between key events -/

/-- `d'` is `d` after sample updates and refreshes, as `DXSMP`, `DXUPD`, `TICK` and `RENDER` make them (42_eg_dexed.md R107,
R110). -/
inductive Dx.Runs (c : Config) (g : Globals) (p : Params) (d : Dx) : Dx → Prop
  | refl : Runs c g p d d
  | sample {d' : Dx} (n : Nat) : Runs c g p d d' → Runs c g p d (d'.sample c g p n)
  | update {d' : Dx} : Runs c g p d d' → Runs c g p d (d'.update c g p)

namespace Dx.Runs

variable {c : Config} {g : Globals} {p : Params} {d d' d'' : Dx}

theorem trans (h : Runs c g p d d') (h' : Runs c g p d' d'') : Runs c g p d d'' := by
  induction h' with
  | refl => exact h
  | sample n _ ih => exact ih.sample n
  | update _ ih => exact ih.update

/-- What every sample update and every refresh keeps, a run keeps. -/
theorem keeps {P : Dx → Prop} (hsample : ∀ d n, P d → P (d.sample c g p n)) (hupdate : ∀ d, P d → P (d.update c g p))
    (h : Runs c g p d d') (hd : P d) : P d' := by
  induction h with
  | refl => exact hd
  | sample n _ ih => exact hsample _ n ih
  | update _ ih => exact hupdate _ ih

end Dx.Runs

/-- The operator's registers are kept and its Dexed-style engine has run. -/
structure Operator.DxRuns (c : Config) (g : Globals) (op op' : Operator) : Prop where
  p : op'.p = op.p
  dx : Dx.Runs c g op.p op.dx op'.dx

namespace Operator.DxRuns

variable {c : Config} {g : Globals} {op op' op'' : Operator}

theorem refl (op : Operator) : op.DxRuns c g op := ⟨rfl, .refl⟩

theorem trans (h : op.DxRuns c g op') (h' : op'.DxRuns c g op'') : op.DxRuns c g op'' :=
  ⟨h'.p.trans h.p, h.dx.trans (h.p ▸ h'.dx)⟩

theorem stepEngine (v : Variant) (op : Operator) : op.DxRuns c g (op.stepEngine c v g) := by
  cases v with
  | fm => exact ⟨rfl, .refl⟩
  | sw => exact ⟨rfl, .sample 1 .refl⟩

theorem refresh (v : Variant) (op : Operator) : op.DxRuns c g (op.refresh c v g) := by
  cases v <;> unfold Operator.refresh <;> dsimp only <;> split
  · exact ⟨rfl, .refl⟩
  · exact refl op
  · exact ⟨rfl, .update .refl⟩
  · exact refl op

theorem tickOperator (s : State) (i : Nat) (op : Operator) : op.DxRuns s.cfg s.g (s.tickOperator i op) := by
  obtain ⟨hp, hdx⟩ := stepEngine (c := s.cfg) (g := s.g) s.variant op
  rw [State.tickOperator, Operator.setPrev_eq]
  exact ⟨hp, hdx⟩

end Operator.DxRuns

/-- Every operator of `t` is one of `s` whose Dexed-style engine has run. -/
structure State.DxRuns (s t : State) : Prop where
  cfg : t.cfg = s.cfg
  g : t.g = s.g
  ops : ∀ (a : Nat) (op' : Operator), t.ops[a]? = some op' → ∃ op, s.ops[a]? = some op ∧ op.DxRuns s.cfg s.g op'

namespace State.DxRuns

variable {s t u : State}

theorem refl (s : State) : s.DxRuns s := ⟨rfl, rfl, fun _ op hop => ⟨op, hop, .refl op⟩⟩

theorem trans (hst : s.DxRuns t) (htu : t.DxRuns u) : s.DxRuns u where
  cfg := htu.cfg.trans hst.cfg
  g := htu.g.trans hst.g
  ops a op'' hop'' := by
    obtain ⟨op', hop', hruns'⟩ := htu.ops a op'' hop''
    obtain ⟨op, hop, hruns⟩ := hst.ops a op' hop'
    rw [hst.cfg, hst.g] at hruns'
    exact ⟨op, hop, hruns.trans hruns'⟩

theorem refreshAll (s : State) : s.DxRuns s.refreshAll where
  cfg := s.onAll_cfg _
  g := s.onAll_g _
  ops a op' hop' := by
    rw [State.refreshAll, State.onAll_getElem?, Option.map_eq_some_iff] at hop'
    obtain ⟨op, hop, rfl⟩ := hop'
    exact ⟨op, hop, .refresh s.variant op⟩

theorem sampleTick (s : State) : s.DxRuns (sampleTick s) := by
  rcases sampleTick_cases s with ⟨-, h⟩ | ⟨-, h⟩ <;> rw [h]
  · refine ⟨s.ticked_cfg, s.ticked_g, fun a op' hop' => ?_⟩
    rw [State.ticked_getElem?, Option.map_eq_some_iff] at hop'
    obtain ⟨op, hop, rfl⟩ := hop'
    exact ⟨op, hop, .tickOperator s a op⟩
  · exact ⟨rfl, rfl, (refl s).ops⟩

theorem sampleTicks (n : Nat) (s : State) : s.DxRuns (sampleTicks n s) := by
  induction n generalizing s with
  | zero => exact refl s
  | succ n ih => exact (sampleTick s).trans (ih (Machine.sampleTick s))

end State.DxRuns

/-! ### one command (42_eg_dexed.md R106, R107, R110, 44_voice_commands.md R161, R163) -/

/-- What a command can make of the Dexed-style engine of operator `a`, which is `op` in `s`: `INIT` sets it, a key event acts on
it, and every other command lets it run. -/
inductive EngineMove (s : State) (a : Nat) (op : Operator) : Instr → Dx → Prop
  | init (sr : BitVec 32) : EngineMove s a op (.init sr) Dx.initial
  | dxkey (k : BitVec 8) (down : Bool) : k.toNat = a →
      EngineMove s a op (.dxkey k down) (op.dx.key s.cfg s.g op.p down)
  | noteon : s.variant = .sw → EngineMove s a op .noteon (op.dx.key s.cfg s.g op.p true)
  | noteoff : s.variant = .sw → EngineMove s a op .noteoff (op.dx.key s.cfg s.g op.p false)
  | runs (i : Instr) {d : Dx} : Dx.Runs s.cfg s.g op.p op.dx d → EngineMove s a op i d

/-- From `s` to `t` every operator's engine makes a move of the command. -/
def State.EnginesMove (s : State) (i : Instr) (t : State) : Prop :=
  ∀ (a : Nat) (op' : Operator), t.ops[a]? = some op' → ∃ op, s.ops[a]? = some op ∧ EngineMove s a op i op'.dx

namespace State.EnginesMove

variable {i : Instr} {s : State}

/-- The command leaves every operator as it is. -/
theorem of_ops {t : State} (h : t.ops = s.ops) : s.EnginesMove i t :=
  fun _ op' hop' => ⟨op', h ▸ hop', .runs i .refl⟩

theorem of_runs {t : State} (h : s.DxRuns t) : s.EnginesMove i t := fun a op' hop' => by
  obtain ⟨op, hop, hruns⟩ := h.ops a op' hop'
  exact ⟨op, hop, .runs i hruns.dx⟩

theorem gated {f : State → State} (hf : s.EnginesMove i (f s)) : s.EnginesMove i (gated f s) := by
  rcases gated_cases f s with ⟨-, h⟩ | ⟨-, h⟩ <;> rw [h]
  · exact hf
  · exact of_ops rfl

theorem onOperator (k : BitVec 8) {f : Operator → Operator × List Response}
    (hf : ∀ op, EngineMove s k.toNat op i (f op).1.dx) : s.EnginesMove i (s.onOperator k f) := fun a op' hop' => by
  rw [State.onOperator_getElem?] at hop'
  split at hop'
  next ha =>
    obtain ⟨op, hop, rfl⟩ := Option.map_eq_some_iff.mp hop'
    exact ⟨op, hop, ha ▸ hf op⟩
  next => exact ⟨op', hop', .runs i .refl⟩

theorem onAll {f : Operator → Operator} (hf : ∀ a op, EngineMove s a op i (f op).dx) : s.EnginesMove i (s.onAll f) :=
  fun a op' hop' => by
    rw [State.onAll_getElem?, Option.map_eq_some_iff] at hop'
    obtain ⟨op, hop, rfl⟩ := hop'
    exact ⟨op, hop, hf a op⟩

theorem initialise (s : State) (sr : BitVec 32) : s.EnginesMove (.init sr) (s.initialise sr) := fun a op' hop' => by
  rw [State.initialise_ops, List.getElem?_replicate] at hop'
  split at hop'
  next ha =>
    obtain rfl := Option.some.inj hop'
    exact ⟨s.ops[a], List.getElem?_eq_getElem ha, .init sr⟩
  next => exact nomatch hop'

theorem writeGlobal (r : GReg) (v : BitVec 32) : s.EnginesMove i (s.writeGlobal r v) := by
  cases r with
  | f0all => exact onAll fun _ _ => .runs i .refl
  | route => exact of_ops rfl
  | fbamt => exact of_ops rfl
  | maxenv => exact fun a op' hop' => onAll (f := Operator.markDx) (fun _ _ => .runs i .refl) a op' hop'

theorem noteon (s : State) : s.EnginesMove .noteon (s.onAll fun op => op.noteOn s.cfg s.variant s.g) :=
  onAll fun a op => by
    cases hv : s.variant with
    | fm => exact .runs _ .refl
    | sw => exact .noteon hv

theorem noteoff (s : State) : s.EnginesMove .noteoff (s.onAll fun op => op.noteOff s.cfg s.variant s.g) :=
  onAll fun a op => by
    cases hv : s.variant with
    | fm => exact .runs _ .refl
    | sw => exact .noteoff hv

end State.EnginesMove

/-- Everything a command can do to the Dexed-style engines. -/
theorem exec_enginesMove (i : Instr) (s : State) : ∃ t, exec i s = .next t ∧ s.EnginesMove i t := by
  cases i with
  | nop => exact ⟨s, rfl, .of_ops rfl⟩
  | init sr => exact ⟨_, exec_init sr s, .initialise s sr⟩
  | wrg sel v =>
    cases h : gregOf sel with
    | none => exact ⟨s, exec_wrg_unnamed h v s, .of_ops rfl⟩
    | some r => exact ⟨_, exec_wrg_named h v s, .gated (.writeGlobal r v)⟩
  | wrp k sel v =>
    cases h : pregOf sel with
    | none => exact ⟨s, exec_wrp_unnamed h k v s, .of_ops rfl⟩
    | some r => exact ⟨_, exec_wrp_named h k v s, .gated (.onOperator k fun _ => .runs _ .refl)⟩
  | wrm k j w =>
    refine ⟨_, exec_wrm k j w s, .gated ?_⟩
    split
    · exact .onOperator k fun _ => .runs _ .refl
    · exact .of_ops rfl
  | noteon => exact ⟨_, exec_noteon s, .gated (.noteon s)⟩
  | noteoff => exact ⟨_, exec_noteoff s, .gated (.noteoff s)⟩
  | tick => exact ⟨_, exec_tick s, .gated (.of_runs (.sampleTick s))⟩
  | render n =>
    exact ⟨_, exec_render n s, .gated (.of_runs ((State.DxRuns.refreshAll s).trans (.sampleTicks n.toNat s.refreshAll)))⟩
  | egset k => exact ⟨_, exec_egset k s, .gated (.onOperator k fun _ => .runs _ .refl)⟩
  | egon k => exact ⟨_, exec_egon k s, .gated (.onOperator k fun _ => .runs _ .refl)⟩
  | egoff k => exact ⟨_, exec_egoff k s, .gated (.onOperator k fun _ => .runs _ .refl)⟩
  | egadv k => exact ⟨_, exec_egadv k s, .gated (.onOperator k fun _ => .runs _ .refl)⟩
  | dxkey k down => exact ⟨_, exec_dxkey k down s, .gated (.onOperator k fun _ => .dxkey k down rfl)⟩
  | dxupd k => exact ⟨_, exec_dxupd k s, .gated (.onOperator k fun _ => .runs _ (.update .refl))⟩
  | dxsmp k n => exact ⟨_, exec_dxsmp k n s, .gated (.onOperator k fun _ => .runs _ (.sample (dxFrames n) .refl))⟩

theorem enginesMove_of_exec {i : Instr} {s t : State} (h : exec i s = .next t) : s.EnginesMove i t := by
  obtain ⟨u, hu, hmove⟩ := exec_enginesMove i s
  obtain rfl : u = t := Host.Outcome.next.inj (hu.symm.trans h)
  exact hmove

/-! ### stage 4 (42_eg_dexed.md R111) -/

/-- Stage 4 with no hold running, at which a run of the engine rests. -/
structure Dx.Ended (d : Dx) : Prop where
  ix : d.ix.val = 4
  hold : d.staticcount.toInt ≤ 0

namespace Dx.Ended

variable {c : Config} {g : Globals} {p : Params} {d d' : Dx}

theorem sample (h : d.Ended) (n : Nat) : d.sample c g p n = d :=
  Dx.sample_of_resting c g p n h.hold ((Dx.not_moving_iff d).mpr (.inl h.ix))

theorem update (h : d.Ended) : d.update c g p = d :=
  Dx.update_other c g p fun hheld => by simp [h.ix] at hheld

theorem runs (h : d.Ended) (hruns : Dx.Runs c g p d d') : d'.Ended :=
  hruns.keeps (fun _ n hd => (hd.sample n).symm ▸ hd) (fun _ hd => hd.update.symm ▸ hd) h

end Dx.Ended

/-- Settles O41: of the moves a command can make, only that of a key that changes leaves stage 4. -/
theorem stageFourIsLeftOnlyByAKeyEvent : Obligations.StageFourIsLeftOnlyByAKeyEvent := by
  unfold Obligations.StageFourIsLeftOnlyByAKeyEvent
  intro i s t a op op' hexec hop hop' hix hhold hleft
  obtain ⟨op₀, hop₀, hmove⟩ := enginesMove_of_exec hexec a op' hop'
  obtain rfl : op₀ = op := Option.some.inj (hop₀.symm.trans hop)
  have hchange {down : Bool} (hdx : op'.dx = op₀.dx.key s.cfg s.g op₀.p down) : op₀.dx.down ≠ down := by
    rintro rfl
    rw [hdx, Dx.key_same] at hleft
    exact hleft hix
  generalize hd : op'.dx = d at hmove
  cases hmove with
  | init sr => exact absurd (hd ▸ rfl) hleft
  | dxkey k down hk => exact .inl ⟨k, down, rfl, hk, hchange hd⟩
  | noteon hv => exact .inr (.inl ⟨rfl, hv, Bool.eq_false_of_not_eq_true (hchange hd)⟩)
  | noteoff hv => exact .inr (.inr ⟨rfl, hv, Bool.eq_true_of_not_eq_false (hchange hd)⟩)
  | runs _ hruns => exact absurd (hd ▸ (Dx.Ended.runs ⟨hix, hhold⟩ hruns).ix) hleft

/-! ### the bounds of 42_eg_dexed.md R113 -/

theorem Dx.initial_bounded : Dx.initial.Bounded 251658240 := by
  constructor <;> decide

section
variable {c : Config} {g : Globals} (hc : c.WithinInt32) (hg : g.DxBounded) (p : Params)
include hc hg

/-- Entering a stage gives it a target, an increment and a hold within their bounds. -/
theorem Dx.Bounded.enter {d : Dx} (h : d.Bounded 251658240) (n : Fin 5) : (Dx.enter c g p d n).Bounded 251658240 := by
  unfold Dx.enter
  split
  next hn =>
    obtain ⟨hfloor, htarget⟩ := dxTarget_bounds (c := c) hg p ⟨n.val, hn⟩
    refine ⟨h.level, ⟨by dsimp only; omega, htarget⟩, fun _ => hfloor, dxIncrement_bounds hc _, ?_⟩
    dsimp only
    split
    · exact dxHold_bounds hc hg _
    · decide
  next hn => exact ⟨h.level, h.target, fun hlt => absurd hlt hn, h.inc, h.staticcount⟩

theorem Dx.Bounded.land {d : Dx} (h : d.Bounded 251658240) : (d.land c g p).Bounded 251658240 :=
  Dx.Bounded.enter hc hg p (d := { d with level := d.target }) ⟨h.target, h.target, h.floor, h.inc, h.staticcount⟩ _

theorem Dx.Bounded.holdStep {d : Dx} (h : d.Bounded 251658240) (n : Nat) :
    (d.holdStep c g p n).Bounded 251658240 := by
  obtain ⟨-, hcount⟩ := h.staticcount
  rcases le_or_gt (d.staticcount.toInt - n) 0 with hout | hgoes
  · rw [Dx.holdStep_of_le c g p n hout]
    have hnone : 0 ≤ (0 : I32).toInt ∧ (0 : I32).toInt ≤ 225792000 := by decide
    exact Dx.Bounded.enter hc hg p (d := { d with staticcount := 0 }) ⟨h.level, h.target, h.floor, h.inc, hnone⟩ _
  · obtain ⟨x, hx, hstep⟩ := Dx.holdStep_of_lt c g p n hgoes
    rw [hstep]
    exact ⟨h.level, h.target, h.floor, h.inc, by dsimp only; omega⟩

/-- A rise below the target lies between the level it had and the target. -/
theorem Dx.Bounded.riseStep {d : Dx} (h : d.Bounded 251658240) : (d.riseStep c g p).Bounded 251658240 := by
  obtain ⟨hlevel₀, hlevel⟩ := h.level
  obtain ⟨-, htarget⟩ := h.target
  obtain ⟨hinc₀, -⟩ := h.inc
  rcases d.riseStep_cases c g p with ⟨-, hstep⟩ | ⟨-, -, hstep⟩ | ⟨hinc, hbelow, hstep⟩ <;> rw [hstep]
  · exact h
  · exact h.land hc hg p
  · have hinc₁ : d.inc.toInt ≠ 0 := fun h0 => hinc (BitVec.eq_of_toInt_eq h0)
    have hfits : d.risen c ≤ 2147483647 := max_le (by omega) (h.dxRise_le hc (by omega))
    have hup : d.level.toInt ≤ d.risen c := le_max_left _ _
    rw [Dx.risen_toInt hfits] at hbelow
    refine ⟨?_, h.target, h.floor, h.inc, h.staticcount⟩
    rw [Dx.risen_toInt hfits]
    omega

/-- A fall above the target lies between the target and the level it had. -/
theorem Dx.Bounded.fallStep {d : Dx} (h : d.Bounded 251658240) : (d.fallStep c g p).Bounded 251658240 := by
  obtain ⟨-, hlevel⟩ := h.level
  obtain ⟨htarget₀, -⟩ := h.target
  obtain ⟨hinc₀, -⟩ := h.inc
  rcases d.fallStep_cases c g p with ⟨-, hstep⟩ | ⟨habove, hstep⟩ <;> rw [hstep]
  · exact h.land hc hg p
  · rw [toI32_toInt c .fall _ h.fall_fits] at habove
    refine ⟨?_, h.target, h.floor, h.inc, h.staticcount⟩
    rw [toI32_toInt c .fall _ h.fall_fits]
    omega

theorem Dx.Bounded.sample {d : Dx} (h : d.Bounded 251658240) (n : Nat) : (d.sample c g p n).Bounded 251658240 := by
  rcases d.sample_cases c g p n with ⟨-, hs⟩ | ⟨-, -, -, hs⟩ | ⟨-, -, -, hs⟩ | ⟨-, -, hs⟩ <;> rw [hs]
  · exact h.holdStep hc hg p n
  · exact h.riseStep hc hg p
  · exact h.fallStep hc hg p
  · exact h

theorem Dx.Bounded.update {d : Dx} (h : d.Bounded 251658240) : (d.update c g p).Bounded 251658240 := by
  by_cases hheld : d.down = true ∧ d.ix.val = 3
  · rw [Dx.update_held c g p hheld]
    exact h.enter hc hg p 2
  · rwa [Dx.update_other c g p hheld]

theorem Dx.Bounded.key {d : Dx} (h : d.Bounded 251658240) (down : Bool) : (d.key c g p down).Bounded 251658240 := by
  by_cases hdown : d.down = down
  · rwa [← hdown, Dx.key_same]
  · rw [Dx.key_change c g p hdown]
    exact Dx.Bounded.enter hc hg p (d := { d with down := down })
      ⟨h.level, h.target, h.floor, h.inc, h.staticcount⟩ _

end

/-- Every move a command can make keeps the bounds. -/
theorem EngineMove.bounded {s : State} {a : Nat} {op : Operator} {i : Instr} {d : Dx} (hc : s.cfg.WithinInt32)
    (hg : s.g.DxBounded) (hop : op.dx.Bounded 251658240) (h : EngineMove s a op i d) : d.Bounded 251658240 := by
  cases h with
  | init sr => exact Dx.initial_bounded
  | dxkey k down _ => exact hop.key hc hg op.p down
  | noteon _ => exact hop.key hc hg op.p true
  | noteoff _ => exact hop.key hc hg op.p false
  | runs _ hruns => exact hruns.keeps (fun _ n hd => hd.sample hc hg op.p n) (fun _ hd => hd.update hc hg op.p) hop

/-! ### the global registers (44_voice_commands.md R161, R165) -/

theorem gated_g {s : State} {f : State → State} (hf : (f s).g = s.g) : (gated f s).g = s.g := by
  rcases gated_cases f s with ⟨-, h⟩ | ⟨-, h⟩ <;> rw [h]
  exact hf

/-- Everything a command can do to the global registers: only `INIT` and `WRG` write one. -/
theorem exec_g_cases (i : Instr) (s : State) : ∃ t, exec i s = .next t ∧
    (t.g = s.g ∨ (∃ sr, i = .init sr ∧ t.g = Globals.initial s.cfg sr) ∨
      ∃ sel r v, i = .wrg sel v ∧ gregOf sel = some r ∧ t.g = (s.writeGlobal r v).g) := by
  cases i with
  | nop => exact ⟨s, rfl, .inl rfl⟩
  | init sr => exact ⟨_, exec_init sr s, .inr (.inl ⟨sr, rfl, s.initialise_g sr⟩)⟩
  | wrg sel v =>
    cases hr : gregOf sel with
    | none => exact ⟨s, exec_wrg_unnamed hr v s, .inl rfl⟩
    | some r =>
      refine ⟨_, exec_wrg_named hr v s, ?_⟩
      rcases gated_cases (fun s => s.writeGlobal r v) s with ⟨-, h⟩ | ⟨-, h⟩ <;> rw [h]
      · exact .inr (.inr ⟨sel, r, v, rfl, hr, rfl⟩)
      · exact .inl rfl
  | wrp k sel v =>
    cases hr : pregOf sel with
    | none => exact ⟨s, exec_wrp_unnamed hr k v s, .inl rfl⟩
    | some r => exact ⟨_, exec_wrp_named hr k v s, .inl (gated_g (s.onOperator_g k _))⟩
  | wrm k j w =>
    refine ⟨_, exec_wrm k j w s, .inl (gated_g ?_)⟩
    split
    · exact s.onOperator_g k _
    · rfl
  | noteon => exact ⟨_, exec_noteon s, .inl (gated_g (s.onAll_g _))⟩
  | noteoff => exact ⟨_, exec_noteoff s, .inl (gated_g (s.onAll_g _))⟩
  | tick => exact ⟨_, exec_tick s, .inl (gated_g (sampleTick_g s))⟩
  | render n => exact ⟨_, exec_render n s, .inl (gated_g (sampleTicks_g n.toNat s.refreshAll))⟩
  | egset k => exact ⟨_, exec_egset k s, .inl (gated_g (s.onOperator_g k _))⟩
  | egon k => exact ⟨_, exec_egon k s, .inl (gated_g (s.onOperator_g k _))⟩
  | egoff k => exact ⟨_, exec_egoff k s, .inl (gated_g (s.onOperator_g k _))⟩
  | egadv k => exact ⟨_, exec_egadv k s, .inl (gated_g (s.onOperator_g k _))⟩
  | dxkey k down => exact ⟨_, exec_dxkey k down s, .inl (gated_g (s.onOperator_g k _))⟩
  | dxupd k => exact ⟨_, exec_dxupd k s, .inl (gated_g (s.onOperator_g k _))⟩
  | dxsmp k n => exact ⟨_, exec_dxsmp k n s, .inl (gated_g (s.onOperator_g k _))⟩

theorem Globals.initial_dxBounded (c : Config) (sr : BitVec 32) : (Globals.initial c sr).DxBounded where
  maxenv := Nat.zero_le _
  srmult := by
    rw [Globals.initial, U31.toI32_toInt]
    exact Int.natCast_nonneg _

theorem maxenvValue_toNat_le (c : Config) (v : BitVec 32) : (maxenvValue c v).toNat ≤ c.maxEnvMax := by
  rw [maxenvValue, BitVec.toNat_ofNat]
  exact (Nat.mod_le _ _).trans (min_le_right _ _)

theorem State.writeGlobal_g_dxBounded {s : State} (hc : s.cfg.WithinInt32) (hg : s.g.DxBounded) (r : GReg)
    (v : BitVec 32) : (s.writeGlobal r v).g.DxBounded := by
  cases r with
  | f0all => exact hg
  | route => exact ⟨hg.maxenv, hg.srmult⟩
  | fbamt => exact ⟨hg.maxenv, hg.srmult⟩
  | maxenv => exact ⟨(maxenvValue_toNat_le s.cfg v).trans hc.maxEnvMax, hg.srmult⟩

/-! ### the bounds of every engine -/

namespace State.DxBounded

variable {i : Instr} {s t : State}

theorem globals (h : s.DxBounded) : s.g.DxBounded := ⟨h.maxenv, h.srmult⟩

/-- A command keeps the bounds: those of the global registers by `exec_g_cases`, those of an engine by its move. -/
theorem of_exec (hc : s.cfg.WithinInt32) (h : s.DxBounded) (hexec : exec i s = .next t) : t.DxBounded := by
  have hg : t.g.DxBounded := by
    obtain ⟨u, hu, hcases⟩ := exec_g_cases i s
    obtain rfl : u = t := Host.Outcome.next.inj (hu.symm.trans hexec)
    rcases hcases with hsame | ⟨sr, -, hinit⟩ | ⟨-, r, v, -, -, hwrite⟩
    · exact hsame ▸ h.globals
    · exact hinit ▸ Globals.initial_dxBounded s.cfg sr
    · exact hwrite ▸ s.writeGlobal_g_dxBounded hc h.globals r v
  refine ⟨hg.maxenv, hg.srmult, fun op' hmem => ?_⟩
  obtain ⟨a, hop'⟩ := List.mem_iff_getElem?.mp hmem
  obtain ⟨op, hop, hmove⟩ := enginesMove_of_exec hexec a op' hop'
  exact hmove.bounded hc h.globals (h.engines op (List.mem_of_getElem? hop))

theorem withPort (h : s.DxBounded) (ws : List Word) : { s with port := ws }.DxBounded := ⟨h.maxenv, h.srmult, h.engines⟩

end State.DxBounded

/-- Settles O43: a step idles, drops a reserved word or executes a command, and each of these keeps the bounds. -/
theorem stepKeepsDexedBounds : Obligations.StepKeepsDexedBounds := by
  unfold Obligations.StepKeepsDexedBounds
  intro s t hc hs hstep
  rcases step_cases s with ⟨-, h⟩ | ⟨-, rest, -, -, -, -, -, h⟩ | ⟨-, rest, i, -, -, -, h⟩
  · obtain rfl : s = t := Host.Outcome.next.inj (h.symm.trans hstep)
    exact hs
  · obtain rfl : { s with port := rest } = t := Host.Outcome.next.inj (h.symm.trans hstep)
    exact hs.withPort rest
  · exact State.DxBounded.of_exec (s := { s with port := rest }) hc (hs.withPort rest) (h.symm.trans hstep)

/-- Settles O59: `INIT` sets every engine to `Dx.initial` and the global registers to values within the bounds. -/
theorem initEstablishesDexedBounds : Obligations.InitEstablishesDexedBounds := by
  unfold Obligations.InitEstablishesDexedBounds
  intro s sr
  obtain ⟨hmaxenv, hsrmult⟩ := Globals.initial_dxBounded s.cfg sr
  refine ⟨s.initialise sr, exec_init sr s, hmaxenv, hsrmult, fun op hop => ?_⟩
  rw [List.eq_of_mem_replicate hop]
  exact Dx.initial_bounded

end Sys2Proof.Machine
end

section
/-! PROOFS. The loops of `wrap01`: where they end, every sufficient number of turns leaves the same phase; in exact arithmetic
that phase is the fraction (43_operator_mod_mix.md R135). -/

namespace Sys2Proof.Machine

section
variable {r : ℚ → ℚ} {p q : ℚ} {k n : Nat}

/-! ### the loop that goes down -/

theorem wrapDown_of_le (hkn : k ≤ n) (h : wrapDown r k p < 1) : wrapDown r n p = wrapDown r k p := by
  induction k generalizing p n with
  | zero => exact wrapDown_ended r n h
  | succ k ih =>
    rcases lt_or_ge p 1 with hp | hp
    · rw [wrapDown_ended r _ hp, wrapDown_ended r _ hp]
    · obtain ⟨n, rfl⟩ := Nat.exists_eq_add_one_of_ne_zero (Nat.ne_zero_of_lt hkn)
      rw [wrapDown_turn r k hp] at h ⊢
      rw [wrapDown_turn r n hp]
      exact ih (Nat.le_of_succ_le_succ hkn) h

/-- The loop ends exactly where some number of turns leaves its condition false. -/
theorem downTo_iff : DownTo r p q ↔ ∃ k, wrapDown r k p = q ∧ q < 1 := by
  constructor
  · intro h
    induction h with
    | done hp => exact ⟨0, rfl, hp⟩
    | turn hp _ ih =>
      obtain ⟨k, hk, hq⟩ := ih
      exact ⟨k + 1, (wrapDown_turn r k hp).trans hk, hq⟩
  · rintro ⟨k, rfl, h⟩
    induction k generalizing p with
    | zero => exact .done h
    | succ k ih =>
      rcases lt_or_ge p 1 with hp | hp
      · rw [wrapDown_ended r _ hp]
        exact .done hp
      · rw [wrapDown_turn r k hp] at h ⊢
        exact .turn hp (ih h)

/-! ### the loop that goes up -/

theorem wrapUp_of_le (hkn : k ≤ n) (h : 0 ≤ wrapUp r k p) : wrapUp r n p = wrapUp r k p := by
  induction k generalizing p n with
  | zero => exact wrapUp_ended r n h
  | succ k ih =>
    rcases lt_or_ge p 0 with hp | hp
    · obtain ⟨n, rfl⟩ := Nat.exists_eq_add_one_of_ne_zero (Nat.ne_zero_of_lt hkn)
      rw [wrapUp_turn r k hp] at h ⊢
      rw [wrapUp_turn r n hp]
      exact ih (Nat.le_of_succ_le_succ hkn) h
    · rw [wrapUp_ended r _ hp, wrapUp_ended r _ hp]

/-- The loop ends exactly where some number of turns leaves its condition false. -/
theorem upTo_iff : UpTo r p q ↔ ∃ k, wrapUp r k p = q ∧ 0 ≤ q := by
  constructor
  · intro h
    induction h with
    | done hp => exact ⟨0, rfl, hp⟩
    | turn hp _ ih =>
      obtain ⟨k, hk, hq⟩ := ih
      exact ⟨k + 1, (wrapUp_turn r k hp).trans hk, hq⟩
  · rintro ⟨k, rfl, h⟩
    induction k generalizing p with
    | zero => exact .done h
    | succ k ih =>
      rcases lt_or_ge p 0 with hp | hp
      · rw [wrapUp_turn r k hp] at h ⊢
        exact .turn hp (ih h)
      · rw [wrapUp_ended r _ hp]
        exact .done hp

/-! ### both loops -/

/-- Loops that have ended stay so, at the same phase, with more turns. -/
theorem wrapLoops_of_le (hkn : k ≤ n) (h : wrapEnded r k p = true) :
    wrapEnded r n p = true ∧ wrapLoops r n p = wrapLoops r k p := by
  rw [wrapEnded_iff] at h ⊢
  obtain ⟨hdown, hup⟩ := h
  have hloops : wrapLoops r n p = wrapLoops r k p := by
    rw [wrapLoops, wrapDown_of_le hkn hdown]
    exact wrapUp_of_le hkn hup
  rw [wrapDown_of_le hkn hdown, hloops]
  exact ⟨⟨hdown, hup⟩, rfl⟩

/-- The loops end exactly where some number of turns ends both; the greater of their two numbers does. -/
theorem wrapsTo_iff_turns : WrapsTo r p q ↔ ∃ k, wrapEnded r k p = true ∧ wrapLoops r k p = q := by
  constructor
  · rintro ⟨m, hdown, hup⟩
    obtain ⟨a, rfl, hm⟩ := downTo_iff.mp hdown
    obtain ⟨b, hb, hq⟩ := upTo_iff.mp hup
    have ha : wrapDown r (max a b) p = wrapDown r a p := wrapDown_of_le (le_max_left a b) hm
    have hloops : wrapLoops r (max a b) p = q := by
      rw [wrapLoops, ha, wrapUp_of_le (le_max_right a b) (hb ▸ hq), hb]
    exact ⟨max a b, (wrapEnded_iff ..).mpr ⟨ha ▸ hm, hloops ▸ hq⟩, hloops⟩
  · rintro ⟨k, hk, rfl⟩
    obtain ⟨hdown, hup⟩ := (wrapEnded_iff r k p).mp hk
    exact ⟨_, downTo_iff.mpr ⟨k, rfl, hdown⟩, upTo_iff.mpr ⟨k, rfl, hup⟩⟩

/-- `wrap01` is what its loops leave, and `wrapEnds` whether they end (43_operator_mod_mix.md R135). -/
theorem wrapsTo_iff {c : Config} (hvalid : c.Valid) : WrapsTo c.rnd p q ↔ wrapEnds c p = true ∧ wrap01 c p = q := by
  constructor
  · intro h
    obtain ⟨k, hk, rfl⟩ := wrapsTo_iff_turns.mp h
    have hends : wrapEnds c p = true := hvalid.wrapTurns_enough p k hk
    obtain ⟨-, hfromTurns⟩ := wrapLoops_of_le (le_max_left (c.wrapTurns p) k) hends
    obtain ⟨-, hfromK⟩ := wrapLoops_of_le (le_max_right (c.wrapTurns p) k) hk
    exact ⟨hends, hfromTurns.symm.trans hfromK⟩
  · rintro ⟨hends, hq⟩
    exact wrapsTo_iff_turns.mpr ⟨_, hends, hq⟩

/-! ### exact arithmetic -/

theorem DownTo.fract_eq (hr : ∀ x, r x = x) (h : DownTo r p q) : Int.fract q = Int.fract p := by
  induction h with
  | done _ => rfl
  | turn _ _ ih => rw [ih, hr, Int.fract_sub_one]

theorem UpTo.fract_eq (hr : ∀ x, r x = x) (h : UpTo r p q) : Int.fract q = Int.fract p := by
  induction h with
  | done _ => rfl
  | turn _ _ ih => rw [ih, hr, Int.fract_add_one]

/-- A turn up starts below 0, so it ends below 1. -/
theorem UpTo.lt_one (hr : ∀ x, r x = x) (h : UpTo r p q) (hp : p < 1) : q < 1 := by
  induction h with
  | done _ => exact hp
  | turn hneg _ ih => exact ih (by rw [hr]; linarith)

/-- In exact arithmetic the loops keep the fraction and leave a phase in [0, 1), which is then its own fraction. -/
theorem WrapsTo.eq_fract (hr : ∀ x, r x = x) (h : WrapsTo r p q) : q = Int.fract p := by
  obtain ⟨m, hdown, hup⟩ := h
  obtain ⟨-, -, hm⟩ := downTo_iff.mp hdown
  obtain ⟨-, -, hq⟩ := upTo_iff.mp hup
  calc q = Int.fract q := (Int.fract_eq_self.mpr ⟨hq, hup.lt_one hr hm⟩).symm
    _ = Int.fract m := hup.fract_eq hr
    _ = Int.fract p := hdown.fract_eq hr

theorem exactTurns_le (h : |p| + 1 ≤ (n : ℚ)) : exactTurns p ≤ n := by
  have hlow : p - 1 < (p.floor : ℚ) := Int.sub_one_lt_floor p
  have hhigh : (p.floor : ℚ) ≤ p := Int.floor_le p
  have hfloor : |(p.floor : ℚ)| ≤ |p| + 1 := abs_le.mpr ⟨by linarith [neg_abs_le p], by linarith [le_abs_self p]⟩
  have hturns : ((exactTurns p : Nat) : ℚ) = |(p.floor : ℚ)| := by simp [exactTurns]
  exact_mod_cast hturns.trans_le (hfloor.trans h)

theorem wrapEnded_of_exact (hr : ∀ x, r x = x) (h : |p| + 1 ≤ (n : ℚ)) : wrapEnded r n p = true := by
  obtain rfl : r = fun x => x := funext hr
  obtain ⟨hends, -⟩ := wrapLoops_of_le (exactTurns_le h) (wrapEnded_exact p)
  exact hends

theorem wrapLoops_of_exact (hr : ∀ x, r x = x) (h : wrapEnded r n p = true) : wrapLoops r n p = Int.fract p :=
  (wrapsTo_iff_turns.mpr ⟨n, h, rfl⟩).eq_fract hr

theorem wrap01_of_exact {c : Config} (hvalid : c.Valid) (hexact : c.Exact) (p : ℚ) : wrap01 c p = Int.fract p :=
  wrapLoops_of_exact hexact (wrapEnds_of_exact hvalid hexact p)

end

/-- Settles O47: the loops are those of `wrapsTo_iff` under every `rnd`, and leave the fraction in exact arithmetic. -/
theorem phaseLoopsReachTheFraction : Obligations.PhaseLoopsReachTheFraction := by
  unfold Obligations.PhaseLoopsReachTheFraction
  intro c p hvalid
  refine ⟨fun q => wrapsTo_iff hvalid, fun hexact => ?_, fun hexact fuel hfuel => ?_⟩
  · rw [wrap01_of_exact hvalid hexact p]
    exact ⟨wrapEnds_of_exact hvalid hexact p, rfl, Int.fract_nonneg p, Int.fract_lt_one p⟩
  · have hends : wrapEnded c.rnd fuel p = true := wrapEnded_of_exact hexact hfuel
    exact ⟨hends, wrapLoops_of_exact hexact hends⟩

end Sys2Proof.Machine
end

section
/-! PROOFS. One tick whose loops end: what it leaves of each operator, what each variant modulates with and mixes, and the bound
of the `FM` mix (43_operator_mod_mix.md R131 to R147). -/

namespace Sys2Proof.Machine

/-! ### one operator -/

/-- In this tick the accumulator of `op`, which is operator `a`, is wrapped to `φ` and its temporary phase to `ψ`
(43_operator_mod_mix.md R134, R142). -/
structure State.WrapsAt (s : State) (a : Nat) (op : Operator) (φ ψ : ℚ) : Prop where
  phase : WrapsTo s.cfg.rnd (op.rawPhase s.cfg s.g) φ
  tmp : WrapsTo s.cfg.rnd (s.cfg.rnd φ + s.modInput a op) ψ

namespace State.WrapsAt
variable {s : State} {a : Nat} {op : Operator} {φ ψ : ℚ}

theorem nextPhase (h : s.WrapsAt a op φ ψ) : op.nextPhase s.cfg s.g = s.cfg.rnd φ := by
  obtain ⟨-, hφ⟩ := (wrapsTo_iff (Config.of_valid s.numeric)).mp h.phase
  exact congrArg s.cfg.rnd hφ

theorem rawTmp (h : s.WrapsAt a op φ ψ) : WrapsTo s.cfg.rnd (s.rawTmp a op) ψ := by
  rw [State.rawTmp, h.nextPhase]
  exact h.tmp

theorem tmpPhase (h : s.WrapsAt a op φ ψ) : s.tmpPhase a op = ψ := by
  obtain ⟨-, hψ⟩ := (wrapsTo_iff (Config.of_valid s.numeric)).mp h.rawTmp
  exact hψ

theorem loopsEnd (h : s.WrapsAt a op φ ψ) : s.loopsEnd a op = true := by
  obtain ⟨hphase, -⟩ := (wrapsTo_iff (Config.of_valid s.numeric)).mp h.phase
  obtain ⟨htmp, -⟩ := (wrapsTo_iff (Config.of_valid s.numeric)).mp h.rawTmp
  exact Bool.and_eq_true_iff.mpr ⟨hphase, htmp⟩

theorem output (h : s.WrapsAt a op φ ψ) :
    s.output a op = op.gain s.cfg s.variant s.g * s.cfg.wave op.p.wsel ψ := by
  rw [State.output, h.tmpPhase]

end State.WrapsAt

/-- An operator after the tick: its output goes into the buffer that `PP` does not name (43_operator_mod_mix.md R147). -/
theorem State.tickOperator_eq (s : State) (a : Nat) (op : Operator) :
    s.tickOperator a op =
      if s.pp then
        { op.stepEngine s.cfg s.variant s.g with ph := op.nextPhase s.cfg s.g, prev0 := s.cfg.rnd (s.output a op) }
      else
        { op.stepEngine s.cfg s.variant s.g with ph := op.nextPhase s.cfg s.g, prev1 := s.cfg.rnd (s.output a op) } := by
  rw [State.tickOperator, Operator.setPrev]
  cases s.pp <;> rfl

/-! ### the whole state -/

/-- All that a tick whose loops end writes (43_operator_mod_mix.md R147). -/
theorem State.ticked_eq (s : State) :
    s.ticked = { s with
      ops := s.ticked.ops, fb0 := s.nextFb0, fb1 := s.nextFb1, pp := !s.pp
      samples := s.samples ++ [{ mix := s.mix, out := s.cfg.toOut s.mix }] } := rfl

theorem exec_tick_of_tickEnds {s : State} (hi : s.inited = true) (hends : s.tickEnds = true) :
    exec .tick s = .next s.ticked := by
  rw [exec_tick, gated_inited _ hi, sampleTick_ends hends]

theorem exec_tick_of_loopsEnd {s : State} (hi : s.inited = true)
    (hends : ∀ (a : Nat) (op : Operator), s.ops[a]? = some op → s.loopsEnd a op = true) :
    exec .tick s = .next s.ticked :=
  exec_tick_of_tickEnds hi (s.tickEnds_iff.mpr hends)

theorem State.prevOut_eq {s : State} {a : Nat} {op : Operator} (hop : s.ops[a]? = some op) :
    s.prevOut a = op.prevAt s.pp := by
  simp [State.prevOut, State.prevOutputs, List.getD_eq_getElem?_getD, hop]

theorem State.olevOf_eq {s : State} {a : Nat} {op : Operator} (hop : s.ops[a]? = some op) : s.olevOf a = op.p.olev := by
  simp [State.olevOf, List.getD_eq_getElem?_getD, hop]

/-- After a tick the previous outputs are the outputs of that tick (43_operator_mod_mix.md R136). -/
theorem State.ticked_prevOut {s : State} {a : Nat} {op : Operator} (hop : s.ops[a]? = some op) :
    s.ticked.prevOut a = s.cfg.rnd (s.output a op) := by
  have hticked : s.ticked.ops[a]? = some (s.tickOperator a op) := by rw [State.ticked_getElem?, hop, Option.map_some]
  rw [State.prevOut_eq hticked, State.ticked_pp, State.tickOperator_prevAt_not]

/-! ### `VARIANT = FM` -/

/-- The modulation of 43_operator_mod_mix.md R138. -/
theorem State.modInput_fm {s : State} {a : Nat} {op : Operator} (hfm : s.variant = .fm) (hop : s.ops[a]? = some op) :
    s.modInput a op = ∑ j ∈ Finset.range s.nops, s.weight a j * s.prevOut j := by
  have hlen : s.prevOutputs.length = s.nops := List.length_map _
  have hweight (j : Nat) : s.weight a j = op.row.getD j 0 := by simp only [State.weight, hop]
  simp only [State.modInput, hfm, weightedSum_eq_sum, hlen, hweight, State.prevOut]

/-- The mixer of 43_operator_mod_mix.md R145. -/
theorem State.mix_fm {s : State} (hfm : s.variant = .fm) :
    s.mix = ∑ i ∈ Finset.range s.nops, s.olevOf i * s.outputs.getD i 0 := by
  have hlen : s.outputs.length = s.nops := List.length_mapIdx
  simp only [State.mix, hfm, weightedSum_eq_sum, hlen, State.olevOf]

theorem State.ticked_fm {s : State} (hfm : s.variant = .fm) :
    s.ticked = { s with
      ops := s.ticked.ops, pp := !s.pp, samples := s.samples ++ [{ mix := s.mix, out := s.cfg.toOut s.mix }] } := by
  have hfb0 : s.nextFb0 = s.fb0 := by rw [State.nextFb0, hfm]
  have hfb1 : s.nextFb1 = s.fb1 := by rw [State.nextFb1, hfm]
  exact s.ticked_eq.trans (by rw [hfb0, hfb1])

theorem State.WrapsAt.output_fm {s : State} {a : Nat} {op : Operator} {φ ψ : ℚ} (hfm : s.variant = .fm)
    (h : s.WrapsAt a op φ ψ) : s.output a op = op.eg.level * s.cfg.wave op.p.wsel ψ := by
  rw [h.output, hfm]
  rfl

theorem State.WrapsAt.tickOperator_fm {s : State} {a : Nat} {op : Operator} {φ ψ : ℚ} (hfm : s.variant = .fm)
    (h : s.WrapsAt a op φ ψ) :
    s.tickOperator a op =
      if s.pp then { op with eg := op.eg.advance s.cfg, ph := s.cfg.rnd φ, prev0 := s.cfg.rnd (s.output a op) }
      else { op with eg := op.eg.advance s.cfg, ph := s.cfg.rnd φ, prev1 := s.cfg.rnd (s.output a op) } := by
  rw [State.tickOperator_eq, h.nextPhase, hfm]
  rfl

/-- The tick steps the engine of an `FM` operator to where `EGADV` takes it (43_operator_mod_mix.md R131). -/
theorem State.ticked_eg_of_egadv {s : State} (hi : s.inited = true) (hfm : s.variant = .fm) {k : BitVec 8}
    {op' : Operator} (hop' : s.ticked.ops[k.toNat]? = some op') :
    ∃ (u : State) (opk : Operator), exec (.egadv k) s = .next u ∧ u.ops[k.toNat]? = some opk ∧ op'.eg = opk.eg := by
  rw [State.ticked_getElem?, Option.map_eq_some_iff] at hop'
  obtain ⟨op, hop, rfl⟩ := hop'
  refine ⟨_, op.egAdvance s.cfg, exec_egadv_of_some hi hop, set_getElem?_self hop _, ?_⟩
  rw [State.tickOperator_eg, hfm]
  rfl

/-- Settles O48: the loops are those of `State.WrapsAt`, so the tick ends at `State.ticked`, of which each clause is a fact. -/
theorem tickProducesOneFmSample : Obligations.TickProducesOneFmSample := by
  unfold Obligations.TickProducesOneFmSample
  intro s φ ψ hi hfm hloops
  have hwraps (a : Nat) (op : Operator) (hop : s.ops[a]? = some op) : s.WrapsAt a op (φ a) (ψ a) := by
    obtain ⟨hphase, htmp⟩ := hloops a op hop
    exact ⟨hphase, by rwa [State.modInput_fm hfm hop]⟩
  refine ⟨s.ticked, s.mix, fun i => s.outputs.getD i 0, exec_tick_of_loopsEnd hi fun a op hop => (hwraps a op hop).loopsEnd,
    State.ticked_fm hfm, s.ticked_nops, State.mix_fm hfm, fun a op hop => ?_,
    fun k op' hop' => State.ticked_eg_of_egadv hi hfm hop'⟩
  have hw := hwraps a op hop
  beta_reduce
  rw [State.outputs_getD hop, State.ticked_getElem?, hop, Option.map_some, hw.tickOperator_fm hfm]
  exact ⟨hw.output_fm hfm, State.ticked_prevOut hop, op.eg.advance s.cfg, rfl⟩

/-! ### the bound of the `FM` mix (43_operator_mod_mix.md R145) -/

/-- The level lies in [0, 1] (41_eg_dx7.md R90) and the waveform, at a wrapped phase, in [-1, 1] (43_operator_mod_mix.md R137). -/
theorem State.abs_output_le_one {s : State} {op : Operator} (hexact : s.cfg.Exact) (hfm : s.variant = .fm)
    (hlegal : op.eg.Legal) (a : Nat) : |s.output a op| ≤ 1 := by
  have hvalid : s.cfg.Valid := Config.of_valid s.numeric
  have hwave : |s.cfg.wave op.p.wsel (s.tmpPhase a op)| ≤ 1 := by
    rw [State.tmpPhase, wrap01_of_exact hvalid hexact]
    exact abs_le.mpr (hvalid.wave_range _ _ (Int.fract_nonneg _) (Int.fract_lt_one _))
  obtain ⟨hlow, hhigh⟩ := hlegal.level
  have hgain : op.gain s.cfg s.variant s.g = op.eg.level := by rw [hfm, Operator.gain]
  rw [State.output, hgain, abs_mul, abs_of_nonneg hlow]
  exact mul_le_one₀ hhigh (abs_nonneg _) hwave

theorem State.abs_mix_fm_le {s : State} (hexact : s.cfg.Exact) (hlegal : s.Legal) (hfm : s.variant = .fm) :
    |s.mix| ≤ (s.nops : ℚ) := by
  have hterm : ∀ i ∈ Finset.range s.nops, |s.olevOf i * s.outputs.getD i 0| ≤ 1 := by
    intro i hi
    have hop := List.getElem?_eq_getElem (Finset.mem_range.mp hi)
    have hoperator := hlegal.operators _ (List.mem_of_getElem? hop)
    obtain ⟨hlow, hhigh⟩ := hoperator.params.olev
    rw [State.olevOf_eq hop, State.outputs_getD hop, abs_mul, abs_of_nonneg hlow]
    exact mul_le_one₀ hhigh (abs_nonneg _) (State.abs_output_le_one hexact hfm hoperator.eg i)
  rw [State.mix_fm hfm]
  calc |∑ i ∈ Finset.range s.nops, s.olevOf i * s.outputs.getD i 0|
      ≤ ∑ i ∈ Finset.range s.nops, |s.olevOf i * s.outputs.getD i 0| := Finset.abs_sum_le_sum_abs _ _
    _ ≤ ∑ _i ∈ Finset.range s.nops, (1 : ℚ) := Finset.sum_le_sum hterm
    _ = s.nops := by simp

/-- Settles O52: in exact arithmetic the tick ends, and each operator adds at most 1 to its mix. -/
theorem fmMixIsBoundedByTheOperatorCount : Obligations.FmMixIsBoundedByTheOperatorCount := by
  unfold Obligations.FmMixIsBoundedByTheOperatorCount
  intro s hexact hlegal hi hfm
  exact ⟨s.ticked, _, exec_tick_of_tickEnds hi (State.tickEnds_of_exact hexact), s.ticked_samples,
    State.abs_mix_fm_le hexact hlegal hfm⟩

/-! ### `VARIANT = SW`, with its two operators -/

section
variable {s : State} {op0 op1 : Operator} {φ φ0 φ1 ψ ψ0 ψ1 : ℚ}

/-- The carrier is modulated by the modulator's earlier output when serial (43_operator_mod_mix.md R139). -/
theorem State.modInput_carrier (hsw : s.variant = .sw) (hops : s.ops = [op0, op1]) :
    s.modInput 0 op0 = if s.g.route then 0 else (if s.pp then op1.prev1 else op1.prev0) := by
  have hprev : s.prevOutputs.getD 1 0 = op1.prevAt s.pp := State.prevOut_eq (by rw [hops]; rfl)
  rw [State.modInput, hsw]
  simp only [hprev, Operator.prevAt]

/-- The modulator is modulated by the feedback term (43_operator_mod_mix.md R139, R141). -/
theorem State.modInput_modulator (hsw : s.variant = .sw) : s.modInput 1 op1 = fbterm s.cfg s.g s.fb0 s.fb1 := by
  rw [State.modInput, hsw]

/-- The mixer of 43_operator_mod_mix.md R146. -/
theorem State.mix_sw (hsw : s.variant = .sw) (hops : s.ops = [op0, op1]) :
    s.mix = if s.g.route then op0.p.olev * s.output 0 op0 + op1.p.olev * s.output 1 op1
      else op0.p.olev * s.output 0 op0 := by
  simp only [State.mix, hsw, State.outputs, hops]
  rfl

theorem State.ticked_sw (hsw : s.variant = .sw) (hops : s.ops = [op0, op1]) :
    s.ticked = { s with
      ops := [s.tickOperator 0 op0, s.tickOperator 1 op1], fb0 := s.cfg.rnd (s.output 1 op1), fb1 := s.cfg.rnd s.fb0
      pp := !s.pp, samples := s.samples ++ [{ mix := s.mix, out := s.cfg.toOut s.mix }] } := by
  have hops' : s.ticked.ops = [s.tickOperator 0 op0, s.tickOperator 1 op1] := by rw [State.ticked_ops, hops]; rfl
  have hfb0 : s.nextFb0 = s.cfg.rnd (s.output 1 op1) := by
    rw [State.nextFb0, hsw, State.outputs_getD (by rw [hops]; rfl)]
  exact s.ticked_eq.trans (by rw [hops', hfb0, State.nextFb1_sw hsw])

/-- The gain is that of the level after the engine's update (43_operator_mod_mix.md R131). -/
theorem State.WrapsAt.output_sw {a : Nat} {op : Operator} (hsw : s.variant = .sw) (h : s.WrapsAt a op φ ψ) :
    s.output a op = s.cfg.dxGain (op.dx.sample s.cfg s.g op.p 1).level * s.cfg.wave op.p.wsel ψ := by
  rw [h.output, hsw]
  rfl

theorem State.WrapsAt.tickOperator_sw {a : Nat} {op : Operator} (hsw : s.variant = .sw) (h : s.WrapsAt a op φ ψ) :
    s.tickOperator a op =
      if s.pp then
        { op with dx := op.dx.sample s.cfg s.g op.p 1, ph := s.cfg.rnd φ, prev0 := s.cfg.rnd (s.output a op) }
      else
        { op with dx := op.dx.sample s.cfg s.g op.p 1, ph := s.cfg.rnd φ, prev1 := s.cfg.rnd (s.output a op) } := by
  rw [State.tickOperator_eq, h.nextPhase, hsw]
  rfl

theorem exec_tick_sw (hi : s.inited = true) (hops : s.ops = [op0, op1]) (h0 : s.WrapsAt 0 op0 φ0 ψ0)
    (h1 : s.WrapsAt 1 op1 φ1 ψ1) : exec .tick s = .next s.ticked := by
  refine exec_tick_of_loopsEnd hi fun a op hop => ?_
  rw [hops] at hop
  match a, hop with
  | 0, rfl => exact h0.loopsEnd
  | 1, rfl => exact h1.loopsEnd

end

/-- Settles O49: the loops are those of `State.WrapsAt`, so the tick ends at `State.ticked_sw`, and `DXSMP i, 1` makes the
engine's update that the tick makes. -/
theorem tickProducesOneSwSample : Obligations.TickProducesOneSwSample := by
  unfold Obligations.TickProducesOneSwSample
  intro s op0 op1 φ0 φ1 ψ0 ψ1 hi hsw hops raw fb mod0 hφ0 hψ0 hφ1 hψ1
  have h0 : s.WrapsAt 0 op0 φ0 ψ0 := ⟨hφ0, by rwa [State.modInput_carrier hsw hops]⟩
  have h1 : s.WrapsAt 1 op1 φ1 ψ1 := ⟨hφ1, by rwa [State.modInput_modulator hsw]⟩
  have hop0 : s.ops[(0 : BitVec 8).toNat]? = some op0 := by rw [hops]; rfl
  have hop1 : s.ops[(1 : BitVec 8).toNat]? = some op1 := by rw [hops]; rfl
  refine ⟨_, _, s.ticked, _, _, _, _, s.mix, exec_dxsmp_of_some hi hop0 1 rfl, set_getElem?_self hop0 _, rfl,
    exec_dxsmp_of_some hi hop1 1 rfl, set_getElem?_self hop1 _, rfl, exec_tick_sw hi hops h0 h1, ?_, ?_⟩
  · rw [State.mix_sw hsw hops, h0.output_sw hsw, h1.output_sw hsw]
    rfl
  · rw [State.ticked_sw hsw hops, h0.tickOperator_sw hsw, h1.tickOperator_sw hsw, h0.output_sw hsw, h1.output_sw hsw]
    cases s.pp <;> rfl

end Sys2Proof.Machine
end

section
/-! PROOFS. Every command but `INIT` is an update behind the gate of 44_voice_commands.md R160, said once; hence the gate
itself, and that the commands after `INIT` append and leave the same whatever was held before (R172). -/

namespace Sys2Proof.Machine

/-! ### everything a command other than `INIT` does -/

/-- The updates that the commands other than `INIT` make. What they do to an operator is given the registers, never the
streams or the port. -/
inductive Update : (State → State) → Prop
  | skip : Update id
  | onOperator (k : BitVec 8) (f : Config → Globals → Operator → Operator × List Response) :
      Update (fun s => s.onOperator k (f s.cfg s.g))
  | onAll (f : Config → Variant → Globals → Operator → Operator) : Update (fun s => s.onAll (f s.cfg s.variant s.g))
  | writeGlobal (r : GReg) (v : BitVec 32) : Update (fun s => s.writeGlobal r v)
  | ticks (n : Nat) : Update (sampleTicks n)
  | ifOperator (j : Nat) {f : State → State} : Update f → Update (fun s => if j < s.nops then f s else s)
  | comp {f g : State → State} : Update f → Update g → Update (fun s => f (g s))

/-- Every command but `INIT` is the gate of 44_voice_commands.md R160 on an update. -/
theorem exec_gated_update {i : Instr} (hi : ∀ sr, i ≠ .init sr) :
    ∃ f, Update f ∧ ∀ s, exec i s = .next (gated f s) := by
  cases i with
  | nop => exact ⟨id, .skip, fun s => by rw [gated_id]; rfl⟩
  | init sr => exact absurd rfl (hi sr)
  | wrg sel v =>
    cases h : gregOf sel with
    | none => exact ⟨id, .skip, fun s => by rw [gated_id, exec_wrg_unnamed h]⟩
    | some r => exact ⟨_, .writeGlobal r v, exec_wrg_named h v⟩
  | wrp k sel v =>
    cases h : pregOf sel with
    | none => exact ⟨id, .skip, fun s => by rw [gated_id, exec_wrp_unnamed h]⟩
    | some r => exact ⟨_, .onOperator k fun c _ op => (op.writeParam c r v, []), exec_wrp_named h k v⟩
  | wrm k j w =>
    exact ⟨_, .ifOperator j.toNat (.onOperator k fun c _ op => (op.setWeight c j.toNat (unitValue w), [])), exec_wrm k j w⟩
  | noteon => exact ⟨_, .onAll fun c v g op => op.noteOn c v g, exec_noteon⟩
  | noteoff => exact ⟨_, .onAll fun c v g op => op.noteOff c v g, exec_noteoff⟩
  | tick => exact ⟨_, .ticks 1, exec_tick⟩
  | render n => exact ⟨_, .comp (.ticks n.toNat) (.onAll fun c v g op => op.refresh c v g), exec_render n⟩
  | egset k => exact ⟨_, .onOperator k fun c _ op => (op.egRefresh c, []), exec_egset k⟩
  | egon k => exact ⟨_, .onOperator k fun c _ op => ({ op with eg := op.eg.noteOn c }, []), exec_egon k⟩
  | egoff k => exact ⟨_, .onOperator k fun _ _ op => ({ op with eg := op.eg.noteOff }, []), exec_egoff k⟩
  | egadv k => exact ⟨_, .onOperator k fun c _ op => (op.egAdvance c, [.real op.eg.level]), exec_egadv k⟩
  | dxkey k down => exact ⟨_, .onOperator k fun c g op => (op.dxKey c g down, []), exec_dxkey k down⟩
  | dxupd k => exact ⟨_, .onOperator k fun c g op => (op.dxRefresh c g, []), exec_dxupd k⟩
  | dxsmp k n =>
    exact ⟨_, .onOperator k fun c g op => (op.dxSample c g (dxFrames n), [.int (op.dxSample c g (dxFrames n)).dx.level]),
      exec_dxsmp k n⟩

/-! ### the gate -/

theorem Update.inited {f : State → State} (hf : Update f) (s : State) : (f s).inited = s.inited := by
  induction hf generalizing s with
  | skip => rfl
  | onOperator k f => exact s.onOperator_inited k _
  | onAll f => exact s.onAll_inited _
  | writeGlobal r v => cases r <;> rfl
  | ticks n => exact sampleTicks_inited n s
  | ifOperator j _ ih =>
    dsimp only
    split
    · exact ih s
    · rfl
  | comp _ _ ihf ihg => exact (ihf _).trans (ihg s)

/-- No command clears `INITED` (10_state.md R18). -/
theorem exec_keeps_inited {i : Instr} {s t : State} (hs : s.inited = true) (h : exec i s = .next t) : t.inited = true := by
  by_cases hinit : ∃ sr, i = .init sr
  · obtain ⟨sr, rfl⟩ := hinit
    obtain rfl : s.initialise sr = t := Host.Outcome.next.inj ((exec_init sr s).symm.trans h)
    exact s.initialise_inited sr
  · obtain ⟨f, hf, hexec⟩ := exec_gated_update (not_exists.mp hinit)
    obtain rfl : gated f s = t := Host.Outcome.next.inj ((hexec s).symm.trans h)
    rw [gated_inited f hs, hf.inited, hs]

/-- Settles O9: the closed gate, `INIT`, and `exec_keeps_inited`. -/
theorem commandsBeforeInitAreIgnored : Obligations.CommandsBeforeInitAreIgnored := by
  unfold Obligations.CommandsBeforeInitAreIgnored
  exact ⟨fun _ _ hs hi => exec_not_inited hi hs, fun sr s => ⟨_, exec_init sr s, s.initialise_inited sr⟩,
    fun _ _ _ => exec_keeps_inited⟩

/-! ### what the streams and the port held before is never read -/

/-- `s` where the streams began with `rs` and `ps`, and `ws` waits on the port. -/
def State.withHistory (s : State) (rs : List Response) (ps : List Sample) (ws : List Word) : State :=
  { s with responses := rs ++ s.responses, samples := ps ++ s.samples, port := ws }

theorem State.inner_withHistory (s : State) : s.inner.withHistory s.responses s.samples s.port = s := by
  simp [State.withHistory, State.inner]

/-- `f` appends the same to the streams and leaves the same whatever they and the port held before. -/
def OutputBlind (f : State → State) : Prop :=
  ∀ (s : State) (rs : List Response) (ps : List Sample) (ws : List Word),
    f (s.withHistory rs ps ws) = (f s).withHistory rs ps ws

namespace OutputBlind

theorem gated {f : State → State} (hf : OutputBlind f) : OutputBlind (gated f) := by
  intro s rs ps ws
  rcases gated_cases f s with ⟨hi, h⟩ | ⟨hi, h⟩ <;> rw [h]
  · exact (gated_inited f (s := s.withHistory rs ps ws) hi).trans (hf s rs ps ws)
  · exact gated_not_inited f (s := s.withHistory rs ps ws) hi

theorem onOperator (k : BitVec 8) (f : Config → Globals → Operator → Operator × List Response) :
    OutputBlind (fun s => s.onOperator k (f s.cfg s.g)) := by
  intro s rs ps ws
  dsimp only
  cases h : s.ops[k.toNat]? with
  | none => rw [State.onOperator_of_none h, State.onOperator_of_none (s := s.withHistory rs ps ws) h]
  | some op =>
    rw [State.onOperator_of_some h, State.onOperator_of_some (s := s.withHistory rs ps ws) h]
    simp only [State.withHistory, List.append_assoc]
    rfl

theorem sampleTick : OutputBlind sampleTick := by
  intro s rs ps ws
  rcases sampleTick_cases s with ⟨hends, h⟩ | ⟨hends, h⟩ <;> rw [h]
  · rw [sampleTick_ends (s := s.withHistory rs ps ws) hends, State.ticked_eq, State.ticked_eq s]
    simp only [State.withHistory, List.append_assoc]
    rfl
  · exact sampleTick_stuck (s := s.withHistory rs ps ws) hends

theorem sampleTicks (n : Nat) : OutputBlind (sampleTicks n) := by
  induction n with
  | zero => exact fun _ _ _ _ => rfl
  | succ n ih => exact fun s rs ps ws => (congrArg _ (sampleTick s rs ps ws)).trans (ih _ rs ps ws)

end OutputBlind

theorem Update.outputBlind {f : State → State} (hf : Update f) : OutputBlind f := by
  induction hf with
  | skip => exact fun _ _ _ _ => rfl
  | onOperator k f => exact .onOperator k f
  | onAll f => exact fun _ _ _ _ => rfl
  | writeGlobal r v => cases r <;> exact fun _ _ _ _ => rfl
  | ticks n => exact .sampleTicks n
  | @ifOperator j f _ ih =>
    intro s rs ps ws
    change (if j < s.nops then f (s.withHistory rs ps ws) else s.withHistory rs ps ws) = _
    rw [ih, ← apply_ite (fun t : State => t.withHistory rs ps ws)]
  | @comp f g _ _ ihf ihg => exact fun s rs ps ws => (congrArg f (ihg s rs ps ws)).trans (ihf (g s) rs ps ws)

/-- Every command completes, by an update that reads neither stream nor the port. -/
theorem exec_outputBlind (i : Instr) : ∃ f, OutputBlind f ∧ ∀ s, exec i s = .next (f s) := by
  by_cases hinit : ∃ sr, i = .init sr
  · obtain ⟨sr, rfl⟩ := hinit
    exact ⟨_, fun _ _ _ _ => rfl, exec_init sr⟩
  · obtain ⟨f, hf, hexec⟩ := exec_gated_update (not_exists.mp hinit)
    exact ⟨_, hf.outputBlind.gated, hexec⟩

/-- A run appends the same and leaves the same whatever the streams and the port held before. -/
theorem execAll_withHistory (is : List Instr) (s : State) :
    ∃ t : State, ∀ rs ps ws, execAll is (s.withHistory rs ps ws) = .next (t.withHistory rs ps ws) := by
  induction is generalizing s with
  | nil => exact ⟨s, fun _ _ _ => rfl⟩
  | cons i is ih =>
    cases hs : s.stuck with
    | true => exact ⟨s, fun rs ps ws => execAll_stuck (s := s.withHistory rs ps ws) _ hs⟩
    | false =>
      obtain ⟨f, hf, hexec⟩ := exec_outputBlind i
      obtain ⟨t, hrun⟩ := ih (f s)
      refine ⟨t, fun rs ps ws => ?_⟩
      rw [execAll_cons (s := s.withHistory rs ps ws) is hs (hexec _), hf, hrun]

/-- After `INIT` two states of one block differ in their streams and their ports alone (44_voice_commands.md R161). -/
theorem State.initialise_inner_eq {s₁ s₂ : State} (hvariant : s₁.variant = s₂.variant)
    (hnumeric : s₁.numeric = s₂.numeric) (hnops : s₁.nops = s₂.nops) (hstuck : s₁.stuck = s₂.stuck) (sr : BitVec 32) :
    (s₁.initialise sr).inner = (s₂.initialise sr).inner := by
  rw [s₁.initialise_eq_powerOn, s₂.initialise_eq_powerOn, hvariant, hnumeric, hnops, hstuck]
  rfl

/-- A run that begins with `INIT` is the run of the inner state that `INIT` leaves, its outputs appended to what the streams
held. -/
theorem execAll_init_cons (sr : BitVec 32) (is : List Instr) {s t : State} (hs : s.stuck = false)
    (ht : ∀ rs ps ws, execAll is ((s.initialise sr).inner.withHistory rs ps ws) = .next (t.withHistory rs ps ws)) :
    execAll (.init sr :: is) s = .next (t.withHistory s.responses s.samples s.port) := by
  rw [execAll_cons is hs (exec_init sr s), ← (s.initialise sr).inner_withHistory, ht]
  rfl

/-- Settles O17: both runs are the run of one inner state. -/
theorem sameCommandsAfterInitGiveTheSameOutputs : Obligations.SameCommandsAfterInitGiveTheSameOutputs := by
  unfold Obligations.SameCommandsAfterInitGiveTheSameOutputs
  intro sr is s₁ s₂ hvariant hnumeric hnops hs₁ hs₂
  obtain ⟨t, ht⟩ := execAll_withHistory is (s₁.initialise sr).inner
  refine ⟨_, _, t.responses, t.samples, execAll_init_cons sr is hs₁ ht, execAll_init_cons sr is hs₂ ?_, rfl, rfl, rfl,
    rfl, rfl⟩
  rwa [← State.initialise_inner_eq hvariant hnumeric hnops (hs₁.trans hs₂.symm)]

end Sys2Proof.Machine
end

section
/-! PROOFS. `RENDER` is the refresh of the selected engines and then ticks, a block may be split, and the engine that is not
selected is left alone (44_voice_commands.md R163, R169). -/

namespace Sys2Proof.Machine

/-! ### the refresh of one operator -/

/-- The "needs refresh" flag of the selected engine (10_state.md R18). -/
def Operator.dirty (v : Variant) (op : Operator) : Bool :=
  match v with
  | .fm => op.egDirty
  | .sw => op.dxDirty

theorem Operator.refresh_of_clean (c : Config) {v : Variant} (g : Globals) {op : Operator} (h : op.dirty v = false) :
    op.refresh c v g = op := by
  cases v with
  | fm => exact if_neg (Bool.eq_false_iff.mp h)
  | sw => exact if_neg (Bool.eq_false_iff.mp h)

theorem Operator.refresh_fm (c : Config) (g : Globals) {op : Operator} (h : op.egDirty = true) :
    op.refresh c .fm g = op.egRefresh c := if_pos h

theorem Operator.refresh_sw (c : Config) (g : Globals) {op : Operator} (h : op.dxDirty = true) :
    op.refresh c .sw g = op.dxRefresh c g := if_pos h

theorem Operator.refresh_dirty (c : Config) (v : Variant) (g : Globals) (op : Operator) :
    (op.refresh c v g).dirty v = false := by
  cases h : op.dirty v with
  | false => rw [Operator.refresh_of_clean c g h, h]
  | true =>
    cases v with
    | fm => rw [Operator.refresh_fm c g h]; rfl
    | sw => rw [Operator.refresh_sw c g h]; rfl

theorem State.tickOperator_dirty (s : State) (v : Variant) (i : Nat) (op : Operator) :
    (s.tickOperator i op).dirty v = op.dirty v := by
  rw [State.tickOperator, Operator.setPrev_eq]
  cases v <;> cases s.variant <;> rfl

/-! ### the refresh of the block -/

/-- No operator's selected engine needs a refresh. -/
def State.Clean (s : State) : Prop := ∀ op ∈ s.ops, op.dirty s.variant = false

theorem State.refreshAll_getElem? {s : State} {a : Nat} {op : Operator} (hop : s.ops[a]? = some op) :
    s.refreshAll.ops[a]? = some (op.refresh s.cfg s.variant s.g) := by
  rw [State.refreshAll, State.onAll_getElem?, hop, Option.map_some]

theorem State.refreshAll_clean (s : State) : s.refreshAll.Clean := by
  intro op' hop'
  obtain ⟨op, -, rfl⟩ := List.mem_map.mp hop'
  exact op.refresh_dirty s.cfg s.variant s.g

namespace State.Clean
variable {s : State}

theorem refreshAll_eq (h : s.Clean) : s.refreshAll = s := by
  have hops : s.ops.map (fun op => op.refresh s.cfg s.variant s.g) = s.ops :=
    (List.map_congr_left fun op hop => Operator.refresh_of_clean s.cfg s.g (h op hop)).trans (List.map_id _)
  rw [State.refreshAll, State.onAll, hops]

theorem sampleTick (h : s.Clean) : (sampleTick s).Clean := by
  rcases sampleTick_cases s with ⟨-, ht⟩ | ⟨-, ht⟩ <;> rw [ht]
  · intro op' hop'
    obtain ⟨a, ha, rfl⟩ := List.mem_mapIdx.mp hop'
    exact (s.tickOperator_dirty s.variant a _).trans (h _ (List.getElem_mem ha))
  · exact h

theorem sampleTicks (n : Nat) (h : s.Clean) : (sampleTicks n s).Clean := by
  induction n generalizing s with
  | zero => exact h
  | succ n ih => exact ih h.sampleTick

end State.Clean

/-! ### blocks -/

theorem exec_render_of_inited {s : State} (hi : s.inited = true) (n : BitVec 32) :
    exec (.render n) s = .next (sampleTicks n.toNat s.refreshAll) := by
  rw [exec_render, gated_inited _ hi]

theorem exec_render_not_inited {s : State} (hi : s.inited = false) (n : BitVec 32) : exec (.render n) s = .next s :=
  exec_not_inited nofun hi

/-- Settles O55: the first block leaves no engine to refresh, so the second one only goes on ticking. -/
theorem splitBlocksRenderTheSameSamples : Obligations.SplitBlocksRenderTheSameSamples := by
  unfold Obligations.SplitBlocksRenderTheSameSamples
  intro s a b hab
  cases hi : s.inited with
  | false => exact ⟨s, s, exec_render_not_inited hi a, exec_render_not_inited hi b, exec_render_not_inited hi (a + b)⟩
  | true =>
    have hclean : (sampleTicks a.toNat s.refreshAll).Clean := s.refreshAll_clean.sampleTicks a.toNat
    have hi' : (sampleTicks a.toNat s.refreshAll).inited = true := (sampleTicks_inited _ _).trans hi
    refine ⟨_, _, exec_render_of_inited hi a, exec_render_of_inited hi' b, ?_⟩
    rw [hclean.refreshAll_eq, ← sampleTicks_add, ← BitVec.toNat_add_of_lt hab]
    exact exec_render_of_inited hi (a + b)

/-- `n` times `TICK` are `n` sample ticks; a tick that never ends is the last in both. -/
theorem execAll_ticks (n : Nat) {s : State} (hs : s.stuck = false) (hi : s.inited = true) :
    execAll (List.replicate n .tick) s = .next (sampleTicks n s) := by
  induction n generalizing s with
  | zero => rfl
  | succ n ih =>
    rw [List.replicate_succ, execAll_tick_cons _ hs hi]
    rcases sampleTick_cases s with ⟨-, h⟩ | ⟨hends, h⟩
    · rw [sampleTicks, h, ih (s.ticked_stuck.trans hs) (s.ticked_inited.trans hi)]
    · rw [sampleTicks_stuck hends, h, execAll_stuck _ rfl]

/-- Settles O54: the refreshed state, operator by operator, and `execAll_ticks` from it. -/
theorem renderIsRefreshThenTicks : Obligations.RenderIsRefreshThenTicks := by
  unfold Obligations.RenderIsRefreshThenTicks
  intro s n hs hi
  refine ⟨s.refreshAll, rfl, s.onAll_nops _, fun a op hop => ?_, ?_⟩
  · have hop' := State.refreshAll_getElem? hop
    refine ⟨fun hv hdirty => ?_, fun hv hclean => ?_, fun hv hdirty => ?_, fun hv hclean => ?_⟩ <;> rw [hop', hv]
    · rw [Operator.refresh_fm s.cfg s.g hdirty]
      exact ⟨_, buildSteps_built s.cfg op.p, rfl⟩
    · rw [Operator.refresh_of_clean (v := .fm) s.cfg s.g hclean]
    · rw [Operator.refresh_sw s.cfg s.g hdirty]
      refine ⟨_, rfl, fun hheld => ?_, Dx.update_other s.cfg s.g op.p⟩
      rw [Dx.update_held _ _ _ hheld]
      exact Dx.enter_entered s.cfg s.g op.p op.dx 2
    · rw [Operator.refresh_of_clean (v := .sw) s.cfg s.g hclean]
  · rw [exec_render_of_inited hi, execAll_ticks n.toNat (s := s.refreshAll) hs hi]

/-- Settles O53: no tick follows the refresh, and that of one operator is the one `EGSET` or `DXUPD` makes. -/
theorem renderZeroOnlyRefreshes : Obligations.RenderZeroOnlyRefreshes := by
  unfold Obligations.RenderZeroOnlyRefreshes
  intro s hi
  refine ⟨s.refreshAll, exec_render_of_inited hi 0, rfl, s.onAll_nops _, fun k op hop => ?_⟩
  refine ⟨_, State.refreshAll_getElem? hop, fun hv hdirty => ?_, fun hv hclean => ?_, fun hv hdirty => ?_,
    fun hv hclean => ?_⟩ <;> rw [hv]
  · rw [Operator.refresh_fm s.cfg s.g hdirty]
    exact ⟨_, exec_egset_of_some hi hop, set_getElem?_self hop _⟩
  · exact Operator.refresh_of_clean s.cfg s.g hclean
  · rw [Operator.refresh_sw s.cfg s.g hdirty]
    exact ⟨_, exec_dxupd_of_some hi hop, set_getElem?_self hop _⟩
  · exact Operator.refresh_of_clean s.cfg s.g hclean

/-! ### the engine that is not selected -/

/-- The engine of `op` that is not selected is the one of `op'` (44_voice_commands.md R163). -/
structure Operator.SameOtherEngine (v : Variant) (op op' : Operator) : Prop where
  dx : v = .fm → op'.dx = op.dx
  eg : v = .sw → op'.eg = op.eg

namespace Operator.SameOtherEngine

variable {v : Variant} {op op' op'' : Operator}

theorem refl (v : Variant) (op : Operator) : op.SameOtherEngine v op := ⟨fun _ => rfl, fun _ => rfl⟩

theorem trans (h : op.SameOtherEngine v op') (h' : op'.SameOtherEngine v op'') : op.SameOtherEngine v op'' :=
  ⟨fun hv => (h'.dx hv).trans (h.dx hv), fun hv => (h'.eg hv).trans (h.eg hv)⟩

theorem noteOn (c : Config) (v : Variant) (g : Globals) (op : Operator) : op.SameOtherEngine v (op.noteOn c v g) := by
  cases v with
  | fm => exact ⟨fun _ => rfl, nofun⟩
  | sw => exact ⟨nofun, fun _ => rfl⟩

theorem noteOff (c : Config) (v : Variant) (g : Globals) (op : Operator) : op.SameOtherEngine v (op.noteOff c v g) := by
  cases v with
  | fm => exact ⟨fun _ => rfl, nofun⟩
  | sw => exact ⟨nofun, fun _ => rfl⟩

theorem refresh (c : Config) (v : Variant) (g : Globals) (op : Operator) : op.SameOtherEngine v (op.refresh c v g) := by
  cases h : op.dirty v with
  | false => rw [Operator.refresh_of_clean c g h]; exact refl v op
  | true =>
    cases v with
    | fm => rw [Operator.refresh_fm c g h]; exact ⟨fun _ => rfl, nofun⟩
    | sw => rw [Operator.refresh_sw c g h]; exact ⟨nofun, fun _ => rfl⟩

theorem tickOperator (s : State) (i : Nat) (op : Operator) : op.SameOtherEngine s.variant (s.tickOperator i op) := by
  rw [State.tickOperator, Operator.setPrev_eq]
  cases s.variant with
  | fm => exact ⟨fun _ => rfl, nofun⟩
  | sw => exact ⟨nofun, fun _ => rfl⟩

end Operator.SameOtherEngine

/-- From `s` to `t` the engine that is not selected is kept in every operator. -/
structure State.SameOtherEngines (s t : State) : Prop where
  variant : t.variant = s.variant
  ops : ∀ (a : Nat) (op' : Operator), t.ops[a]? = some op' →
    ∃ op, s.ops[a]? = some op ∧ op.SameOtherEngine s.variant op'

namespace State.SameOtherEngines

variable {s t u : State}

theorem refl (s : State) : s.SameOtherEngines s := ⟨rfl, fun _ op hop => ⟨op, hop, .refl _ op⟩⟩

theorem trans (hst : s.SameOtherEngines t) (htu : t.SameOtherEngines u) : s.SameOtherEngines u where
  variant := htu.variant.trans hst.variant
  ops a op'' hop'' := by
    obtain ⟨op', hop', hsame'⟩ := htu.ops a op'' hop''
    obtain ⟨op, hop, hsame⟩ := hst.ops a op' hop'
    exact ⟨op, hop, hsame.trans (hst.variant ▸ hsame')⟩

theorem gated {f : State → State} (hf : s.SameOtherEngines (f s)) : s.SameOtherEngines (gated f s) := by
  rcases gated_cases f s with ⟨-, h⟩ | ⟨-, h⟩ <;> rw [h]
  · exact hf
  · exact refl s

theorem onAll {f : Operator → Operator} (hf : ∀ op : Operator, op.SameOtherEngine s.variant (f op)) :
    s.SameOtherEngines (s.onAll f) where
  variant := s.onAll_variant f
  ops a op' hop' := by
    rw [State.onAll_getElem?, Option.map_eq_some_iff] at hop'
    obtain ⟨op, hop, rfl⟩ := hop'
    exact ⟨op, hop, hf op⟩

theorem sampleTick (s : State) : s.SameOtherEngines (sampleTick s) := by
  rcases sampleTick_cases s with ⟨-, h⟩ | ⟨-, h⟩ <;> rw [h]
  · refine ⟨s.ticked_variant, fun a op' hop' => ?_⟩
    rw [State.ticked_getElem?, Option.map_eq_some_iff] at hop'
    obtain ⟨op, hop, rfl⟩ := hop'
    exact ⟨op, hop, .tickOperator s a op⟩
  · exact ⟨rfl, (refl s).ops⟩

theorem sampleTicks (n : Nat) (s : State) : s.SameOtherEngines (sampleTicks n s) := by
  induction n generalizing s with
  | zero => exact refl s
  | succ n ih => exact (sampleTick s).trans (ih (Machine.sampleTick s))

end State.SameOtherEngines

theorem exec_voice_sameOtherEngines {i : Instr} (hi : i = .noteon ∨ i = .noteoff ∨ i = .tick ∨ ∃ n, i = .render n)
    {s t : State} (h : exec i s = .next t) : s.SameOtherEngines t := by
  rcases hi with rfl | rfl | rfl | ⟨n, rfl⟩ <;> obtain rfl := Host.Outcome.next.inj h
  · exact .gated (.onAll (.noteOn s.cfg s.variant s.g))
  · exact .gated (.onAll (.noteOff s.cfg s.variant s.g))
  · exact .gated (.sampleTick s)
  · exact .gated ((State.SameOtherEngines.onAll (.refresh s.cfg s.variant s.g)).trans (.sampleTicks n.toNat s.refreshAll))

/-- Settles O46, by `exec_voice_sameOtherEngines`. -/
theorem voiceCommandsLeaveTheOtherEngine : Obligations.VoiceCommandsLeaveTheOtherEngine := by
  unfold Obligations.VoiceCommandsLeaveTheOtherEngine
  intro i s hi
  obtain ⟨t, ht, hsame⟩ := exec_next_sameInstance i s
  refine ⟨t, ht, hsame.nops, fun a op op' hop hop' => ?_⟩
  obtain ⟨op₀, hop₀, hdx, heg⟩ := (exec_voice_sameOtherEngines hi ht).ops a op' hop'
  obtain rfl : op₀ = op := Option.some.inj (hop₀.symm.trans hop)
  exact ⟨hdx, heg⟩

end Sys2Proof.Machine
end

section
/-! PROOFS. What `INIT`, `NOP` and the register writes leave (44_voice_commands.md R161, R162, R164 to R166). -/

namespace Sys2Proof.Machine

/-! ### `NOP` -/

/-- Settles O18: the word's decoding is computed, and both meanings answer the state they are given. -/
theorem nopChangesNothing : Obligations.NopChangesNothing := by
  unfold Obligations.NopChangesNothing
  exact ⟨by decide, fun _ => ⟨rfl, fun _ _ => rfl⟩⟩

/-! ### `INIT` -/

theorem sampleRateValue_toNat (sr : BitVec 32) : (sampleRateValue sr).toNat = max sr.toNat 1 := by
  unfold sampleRateValue
  split
  next h => rw [h]; rfl
  next h =>
    have hpos : sr.toNat ≠ 0 := fun h0 => h (BitVec.eq_of_toNat_eq h0)
    omega

theorem candSrmultOf_toNat (sr : BitVec 32) : (candSrmultOf sr).toNat = min (44100 * 2 ^ 24 / sr.toNat) (2 ^ 31 - 1) := by
  rw [candSrmultOf, BitVec.toNat_ofNat]
  exact Nat.mod_eq_of_lt (by omega)

/-- The multiplier that `INIT` stores under CFG_T (44_voice_commands.md R161). -/
theorem State.initialise_srmult_cfgT {s : State} (hcfg : s.numeric = .cfgT) (sr : BitVec 32) :
    (s.initialise sr).g.srmult.toInt = (min (44100 * 2 ^ 24 / max sr.toNat 1) (2 ^ 31 - 1) : Nat) := by
  have hsrmult : s.cfg.srmultOf = candSrmultOf := by rw [State.cfg, hcfg]; rfl
  rw [State.initialise_g, Globals.initial, U31.toI32_toInt, hsrmult, candSrmultOf_toNat, sampleRateValue_toNat]

theorem Params.initial_read_integer (c : Config) {r : Nat} (h : r < 0x10 ∨ r = 0x13) :
    (Params.initial c).read r = some 0 := by
  rcases h with h | rfl
  · interval_cases r <;> rfl
  · rfl

theorem Params.initial_read_real (c : Config) {r : Nat} (hlo : 0x10 ≤ r) (hhi : r ≤ 0x12) :
    (Params.initial c).read r = some (c.rnd 0) := by
  interval_cases r <;> rfl

/-- Settles O15: every operator is the initial one, and the rest of the table is written out in `State.initialise`. -/
theorem initSetsEveryElement : Obligations.InitSetsEveryElement := by
  unfold Obligations.InitSetsEveryElement
  intro s sr
  refine ⟨_, exec_init sr s, rfl, sampleRateValue_toNat sr, U31.toI32_toInt _, fun h => s.initialise_srmult_cfgT h sr,
    rfl, rfl, rfl, rfl, rfl, rfl, s.initialise_nops sr, fun op hop => ?_, rfl, rfl, rfl, rfl, rfl, id⟩
  obtain rfl : op = Operator.initial s.cfg s.nops := List.eq_of_mem_replicate hop
  exact ⟨fun r => Params.initial_read_integer s.cfg, fun r => Params.initial_read_real s.cfg, rfl, rfl, rfl, rfl,
    buildSteps_built s.cfg _, rfl, rfl, rfl, rfl, rfl, rfl, rfl, rfl, rfl, rfl, rfl, rfl, rfl⟩

/-! ### `WRG` -/

theorem exec_wrg_of_inited {s : State} (hi : s.inited = true) {sel : BitVec 16} {r : GReg} (h : gregOf sel = some r)
    (v : BitVec 32) : exec (.wrg sel v) s = .next (s.writeGlobal r v) := by
  rw [exec_wrg_named h, gated_inited _ hi]

theorem maxenvValue_toNat (c : Config) (v : BitVec 32) : (maxenvValue c v).toNat = min v.toNat c.maxEnvMax := by
  rw [maxenvValue, BitVec.toNat_ofNat]
  exact Nat.mod_eq_of_lt ((min_le_left _ _).trans_lt v.isLt)

/-- Settles O20: the four writes of `State.writeGlobal`, and a select that names none. -/
theorem wrgWritesTheSelectedGlobal : Obligations.WrgWritesTheSelectedGlobal := by
  unfold Obligations.WrgWritesTheSelectedGlobal
  intro s v hi
  exact ⟨exec_wrg_of_inited hi (r := .f0all) rfl v, exec_wrg_of_inited hi (r := .route) rfl v,
    ⟨_, exec_wrg_of_inited hi (r := .fbamt) rfl v, rfl⟩,
    ⟨_, exec_wrg_of_inited hi (r := .maxenv) rfl v, maxenvValue_toNat s.cfg v⟩,
    fun sel hsel => exec_wrg_unnamed (List.getElem?_eq_none hsel) v s⟩

/-! ### `WRP` -/

/-- The parameter registers as numbers, in the order of their selects (10_state.md R12). -/
def Params.values (p : Params) : List ℚ :=
  [p.egR1.val, p.egR2.val, p.egR3.val, p.egR4.val, p.egL1.val, p.egL2.val, p.egL3.val, p.egL4.val,
    p.dxR0.val, p.dxR1.val, p.dxR2.val, p.dxR3.val, p.dxL0.val, p.dxL1.val, p.dxL2.val, p.dxL3.val,
    p.ratio, p.detune, p.olev, p.wsel.val, p.f0]

theorem PReg.ctorIdx_lt (r : PReg) : r.ctorIdx < 21 := by
  cases r <;> decide

theorem Params.read_eq (p : Params) (r : Nat) : p.read r = p.values[r]? := rfl

/-- A write stores the clamped value at the register's select and keeps every other register (44_voice_commands.md R164). -/
theorem Params.write_values (c : Config) (p : Params) (r : PReg) (v : BitVec 32) :
    (p.write c r v).values = p.values.set r.ctorIdx (storedValue c r.ctorIdx v) := by
  cases r with
  | detune =>
    have hclamp : detuneValue v = max (-1) (min 1 ((v.toInt : ℚ) / 65536)) := clampQ_eq _ _ _ (by norm_num)
    rw [Params.write, hclamp]
    rfl
  | _ => rfl

theorem pregOf_eq_none {sel : BitVec 16} (h : 0x0014 < sel.toNat) : pregOf sel = none := List.getElem?_eq_none h

/-- A select up to 0x14 names the register that stands at its place (10_state.md R12). -/
theorem pregOf_eq_some {sel : BitVec 16} (h : sel.toNat ≤ 0x0014) : ∃ r, pregOf sel = some r ∧ r.ctorIdx = sel.toNat := by
  unfold pregOf
  generalize sel.toNat = n at h
  interval_cases n <;> exact ⟨_, rfl, rfl⟩

theorem PReg.marksEg_eq (r : PReg) : PReg.marksEg r = decide (r.ctorIdx ≤ 0x07) := by
  cases r <;> rfl

theorem PReg.marksDx_eq (r : PReg) : PReg.marksDx r = decide (0x08 ≤ r.ctorIdx ∧ r.ctorIdx ≤ 0x0F) := by
  cases r <;> rfl

theorem Params.read_write (c : Config) (p : Params) (r : PReg) (v : BitVec 32) (n : Nat) :
    (p.write c r v).read n = if n = r.ctorIdx then some (storedValue c n v) else p.read n := by
  have hr : r.ctorIdx < p.values.length := PReg.ctorIdx_lt r
  rw [Params.read_eq, Params.write_values, List.getElem?_set, Params.read_eq]
  by_cases h : r.ctorIdx = n
  · rw [if_pos h, if_pos h.symm, if_pos hr, h]
  · rw [if_neg h, if_neg (Ne.symm h)]

/-- Settles O19: `Params.read_write` on the operator that `WRP` names. -/
theorem wrpStoresTheClampedValue : Obligations.WrpStoresTheClampedValue := by
  unfold Obligations.WrpStoresTheClampedValue
  intro s k sel v hi
  refine ⟨fun op hop hsel => ?_, fun h => ?_⟩
  · obtain ⟨r, hr, hidx⟩ := pregOf_eq_some hsel
    rw [exec_wrp_named hr, gated_onOperator_silent hi hop, ← hidx]
    exact ⟨op.writeParam s.cfg r v, rfl, op.p.read_write s.cfg r v,
      by rw [Operator.writeParam_egDirty, PReg.marksEg_eq], by rw [Operator.writeParam_dxDirty, PReg.marksDx_eq], rfl⟩
  · rcases h with hk | hsel
    · exact exec_of_not_indexOk (decide_eq_false (not_lt.mpr hk))
    · exact exec_wrp_unnamed (pregOf_eq_none hsel) k v s

/-! ### `WRM` -/

theorem exec_wrm_of_some {s : State} {k : BitVec 8} {j : BitVec 16} {op : Operator} (hi : s.inited = true)
    (hop : s.ops[k.toNat]? = some op) (hj : j.toNat < s.nops) (w : BitVec 32) :
    exec (.wrm k j w) s = .next { s with ops := s.ops.set k.toNat (op.setWeight s.cfg j.toNat (unitValue w)) } := by
  rw [exec_wrm, gated_inited _ hi, if_pos hj, State.onOperator_silent hop]

theorem State.weight_of_some {s : State} {a : Nat} {op : Operator} (hop : s.ops[a]? = some op) (b : Nat) :
    s.weight a b = op.row.getD b 0 := by
  rw [State.weight, hop]

/-- One weight set, read back at every index (10_state.md R17). -/
theorem State.weight_setWeight {s : State} {k j : Nat} {op : Operator} (hop : s.ops[k]? = some op)
    (hj : j < op.row.length) (w : ℚ) (a b : Nat) :
    State.weight { s with ops := s.ops.set k (op.setWeight s.cfg j w) } a b =
      if a = k ∧ b = j then s.cfg.rnd w else s.weight a b := by
  by_cases ha : a = k
  · subst ha
    rw [State.weight_of_some (set_getElem?_self hop _), State.weight_of_some hop, Operator.setWeight_row,
      List.getD_eq_getElem?_getD, List.getElem?_set]
    by_cases hb : b = j
    · subst hb
      simp [hj]
    · simp [hb, Ne.symm hb, List.getD_eq_getElem?_getD]
  · simp only [State.weight, List.getElem?_set_ne (Ne.symm ha), ha, false_and, if_false]

/-- Settles O21: the row of the operator has a place for the weight, so `State.weight_setWeight` reads it back. -/
theorem wrmStoresOneWeight : Obligations.WrmStoresOneWeight := by
  unfold Obligations.WrmStoresOneWeight
  intro s k j w hi hshape
  refine ⟨fun hout => exec_of_not_indexOk (by simpa [Instr.indexOk, or_iff_not_imp_left] using hout), fun hk hj => ?_⟩
  obtain ⟨opk, hop⟩ : ∃ op, s.ops[k.toNat]? = some op := ⟨_, List.getElem?_eq_getElem hk⟩
  have hrow : j.toNat < opk.row.length := by rwa [hshape.rows opk (List.mem_of_getElem? hop)]
  refine ⟨_, exec_wrm_of_some hi hop hj w, State.weight_setWeight hop hrow _, rfl, List.length_set,
    fun a op op' ha ha' => ?_⟩
  by_cases hak : a = k.toNat
  · subst hak
    obtain rfl : opk = op := Option.some.inj (hop.symm.trans ha)
    obtain rfl : opk.setWeight s.cfg j.toNat (unitValue w) = op' := Option.some.inj ((set_getElem?_self hop _).symm.trans ha')
    rfl
  · obtain rfl : op = op' := Option.some.inj (ha.symm.trans ((List.getElem?_set_ne (Ne.symm hak)).symm.trans ha'))
    rfl

end Sys2Proof.Machine
end

section
/-! PROOFS. `NOTEON` and `NOTEOFF` drive the selected engine of every operator (44_voice_commands.md R167, R168). -/

namespace Sys2Proof.Machine

section
variable {s : State} {v : Variant}

theorem exec_noteon_of_inited (hi : s.inited = true) (hv : s.variant = v) :
    exec .noteon s = .next (s.onAll fun op => op.noteOn s.cfg v s.g) := by
  rw [exec_noteon, gated_inited _ hi, hv]

theorem exec_noteoff_of_inited (hi : s.inited = true) (hv : s.variant = v) :
    exec .noteoff s = .next (s.onAll fun op => op.noteOff s.cfg v s.g) := by
  rw [exec_noteoff, gated_inited _ hi, hv]

end

/-- Settles O44: with `VARIANT = FM` each operator's DX7-style engine is keyed as `EGON` and `EGOFF` key it. -/
theorem noteEventsDriveTheDx7Engines : Obligations.NoteEventsDriveTheDx7Engines := by
  unfold Obligations.NoteEventsDriveTheDx7Engines
  exact fun s hi hfm => ⟨exec_noteon_of_inited hi hfm, exec_noteoff_of_inited hi hfm⟩

/-- What a key event makes of an engine that is so keyed already, and of one that is not (42_eg_dexed.md R106). -/
theorem Dx.key_cases (c : Config) (g : Globals) (p : Params) (d : Dx) (down : Bool) :
    (d.down = down → d.key c g p down = d) ∧
    (d.down = !down → StageEntered c g p { d with down := down } (d.key c g p down) (if down then 0 else 3)) := by
  refine ⟨?_, fun h => ?_⟩
  · rintro rfl
    exact Dx.key_same ..
  · rw [Dx.key_change c g p (by rw [h]; exact Bool.not_ne_self down)]
    cases down <;> exact Dx.enter_entered ..

/-- Settles O45: `Dx.key_cases` on every operator. -/
theorem noteEventsDriveTheDexedEngines : Obligations.NoteEventsDriveTheDexedEngines := by
  unfold Obligations.NoteEventsDriveTheDexedEngines
  intro s hi hsw
  refine ⟨⟨_, exec_noteon_of_inited hi hsw, rfl, s.onAll_nops _, fun a op hop => ?_⟩,
    ⟨_, exec_noteoff_of_inited hi hsw, rfl, s.onAll_nops _, fun a op hop => ?_⟩⟩
  · obtain ⟨hheld, hpressed⟩ := op.dx.key_cases s.cfg s.g op.p true
    exact ⟨_, by rw [State.onAll_getElem?, hop]; rfl, hheld, hpressed⟩
  · obtain ⟨hup, hreleased⟩ := op.dx.key_cases s.cfg s.g op.p false
    exact ⟨_, by rw [State.onAll_getElem?, hop]; rfl, hup, hreleased⟩

end Sys2Proof.Machine
end

section
/-! PROOFS. Every command and every step completes (60_exceptions.md R180), and what keeps going without any signal (R182): a loop
that never ends, which only `TICK` and `RENDER` can run, and a moving stage with increment 0. -/

namespace Sys2Proof.Machine

/-! ### which commands can leave a loop running -/

theorem gated_stuck {s : State} {f : State → State} (hf : (f s).stuck = s.stuck) : (gated f s).stuck = s.stuck := by
  rcases gated_cases f s with ⟨-, h⟩ | ⟨-, h⟩ <;> rw [h]
  exact hf

theorem State.writeGlobal_stuck (s : State) (r : GReg) (v : BitVec 32) : (s.writeGlobal r v).stuck = s.stuck := by
  cases r <;> rfl

/-- Only `TICK` and `RENDER` run the loops of `wrap01`: every other command leaves the block as stuck as it was. -/
theorem exec_stuck {i : Instr} (htick : i ≠ .tick) (hrender : ∀ n, i ≠ .render n) (s : State) :
    ∃ t, exec i s = .next t ∧ t.stuck = s.stuck := by
  cases i with
  | nop => exact ⟨s, rfl, rfl⟩
  | init sr => exact ⟨_, exec_init sr s, s.initialise_stuck sr⟩
  | wrg sel v =>
    cases h : gregOf sel with
    | none => exact ⟨s, exec_wrg_unnamed h v s, rfl⟩
    | some r => exact ⟨_, exec_wrg_named h v s, gated_stuck (s.writeGlobal_stuck r v)⟩
  | wrp k sel v =>
    cases h : pregOf sel with
    | none => exact ⟨s, exec_wrp_unnamed h k v s, rfl⟩
    | some r => exact ⟨_, exec_wrp_named h k v s, gated_stuck (s.onOperator_stuck k _)⟩
  | wrm k j w =>
    refine ⟨_, exec_wrm k j w s, gated_stuck ?_⟩
    split
    · exact s.onOperator_stuck k _
    · rfl
  | noteon => exact ⟨_, exec_noteon s, gated_stuck (s.onAll_stuck _)⟩
  | noteoff => exact ⟨_, exec_noteoff s, gated_stuck (s.onAll_stuck _)⟩
  | tick => exact absurd rfl htick
  | render n => exact absurd rfl (hrender n)
  | egset k => exact ⟨_, exec_egset k s, gated_stuck (s.onOperator_stuck k _)⟩
  | egon k => exact ⟨_, exec_egon k s, gated_stuck (s.onOperator_stuck k _)⟩
  | egoff k => exact ⟨_, exec_egoff k s, gated_stuck (s.onOperator_stuck k _)⟩
  | egadv k => exact ⟨_, exec_egadv k s, gated_stuck (s.onOperator_stuck k _)⟩
  | dxkey k down => exact ⟨_, exec_dxkey k down s, gated_stuck (s.onOperator_stuck k _)⟩
  | dxupd k => exact ⟨_, exec_dxupd k s, gated_stuck (s.onOperator_stuck k _)⟩
  | dxsmp k n => exact ⟨_, exec_dxsmp k n s, gated_stuck (s.onOperator_stuck k _)⟩

/-! ### exact arithmetic -/

theorem sampleTick_of_exact {s : State} (hexact : s.cfg.Exact) : sampleTick s = s.ticked :=
  sampleTick_ends (State.tickEnds_of_exact hexact)

theorem sampleTicks_stuck_of_exact (n : Nat) {s : State} (hexact : s.cfg.Exact) : (sampleTicks n s).stuck = s.stuck := by
  induction n generalizing s with
  | zero => rfl
  | succ n ih => rw [sampleTicks, sampleTick_of_exact hexact, ih (s := s.ticked) hexact, State.ticked_stuck]

/-- In exact arithmetic the loops of every tick end, so no command sticks the block (43_operator_mod_mix.md R135). -/
theorem exec_completes (i : Instr) (s : State) : ∃ t, exec i s = .next t ∧ (s.cfg.Exact → t.stuck = s.stuck) := by
  by_cases htick : i = .tick
  · subst htick
    exact ⟨_, exec_tick s, fun hexact => gated_stuck (sampleTicks_stuck_of_exact 1 hexact)⟩
  · by_cases hrender : ∃ n, i = .render n
    · obtain ⟨n, rfl⟩ := hrender
      exact ⟨_, exec_render n s, fun hexact => gated_stuck (sampleTicks_stuck_of_exact n.toNat (s := s.refreshAll) hexact)⟩
    · obtain ⟨t, ht, hstuck⟩ := exec_stuck htick (not_exists.mp hrender) s
      exact ⟨t, ht, fun _ => hstuck⟩

theorem step_completes (s : State) : ∃ t, step s = .next t ∧ (s.cfg.Exact → t.stuck = s.stuck) := by
  rcases step_cases s with ⟨-, h⟩ | ⟨-, rest, -, -, -, -, -, h⟩ | ⟨-, rest, i, -, -, -, h⟩
  · exact ⟨s, h, fun _ => rfl⟩
  · exact ⟨_, h, fun _ => rfl⟩
  · rw [h]
    exact exec_completes i { s with port := rest }

/-- Settles O8: `exec_completes`, `step_completes`, and a reserved encoding acts as `NOP`. -/
theorem everyCommandCompletes : Obligations.EveryCommandCompletes := by
  unfold Obligations.EveryCommandCompletes
  exact ⟨exec_completes, fun _ _ s => ⟨s, rfl, rfl⟩, step_completes⟩

/-! ### a loop that never ends -/

/-- The loops of an operator end where both reach a phase (43_operator_mod_mix.md R135). -/
theorem State.loopsEnd_iff (s : State) (a : Nat) (op : Operator) :
    s.loopsEnd a op = true ↔ ∃ φ ψ, s.WrapsAt a op φ ψ := by
  have hvalid : s.cfg.Valid := Config.of_valid s.numeric
  constructor
  · intro h
    obtain ⟨hphase, htmp⟩ := Bool.and_eq_true_iff.mp h
    exact ⟨_, _, (wrapsTo_iff hvalid).mpr ⟨hphase, rfl⟩, (wrapsTo_iff hvalid).mpr ⟨htmp, rfl⟩⟩
  · rintro ⟨φ, ψ, h⟩
    exact h.loopsEnd

/-- A tick does not end where a loop of some operator does not. -/
theorem State.exists_not_loopsEnd {s : State} (h : s.tickEnds = false) :
    ∃ (a : Nat) (op : Operator), s.ops[a]? = some op ∧ ¬ s.loopsEnd a op = true := by
  have hnot : ¬ s.tickEnds = true := by simp [h]
  rw [State.tickEnds_iff] at hnot
  push Not at hnot
  exact hnot

/-- Settles O50: the two cases of `sampleTick_cases`, told apart by the loops; a stuck block; and `exec_stuck`. -/
theorem aLoopThatNeverEndsSticksTheBlock : Obligations.ALoopThatNeverEndsSticksTheBlock := by
  unfold Obligations.ALoopThatNeverEndsSticksTheBlock
  refine ⟨?_, fun s => step_stuck, fun i s t htick hrender hexec => ?_⟩
  · intro s hi ends
    have hends (a : Nat) (op : Operator) : s.loopsEnd a op = true ↔ ends a op :=
      (s.loopsEnd_iff a op).trans
        ⟨fun ⟨φ, ψ, h⟩ => ⟨φ, ψ, h.phase, h.tmp⟩, fun ⟨φ, ψ, hphase, htmp⟩ => ⟨φ, ψ, hphase, htmp⟩⟩
    rw [exec_tick, gated_inited _ hi]
    refine ⟨sampleTick s, rfl, ?_⟩
    rcases sampleTick_cases s with ⟨hall, h⟩ | ⟨hsome, h⟩ <;> rw [h]
    · exact .inl ⟨fun a op hop => (hends a op).mp (s.tickEnds_iff.mp hall a op hop), s.ticked_stuck, _, s.ticked_samples⟩
    · obtain ⟨a, op, hop, hnot⟩ := State.exists_not_loopsEnd hsome
      exact .inr ⟨⟨a, op, hop, fun h => hnot ((hends a op).mpr h)⟩, rfl⟩
  · obtain ⟨u, hu, hstuck⟩ := exec_stuck htick hrender s
    obtain rfl : u = t := Host.Outcome.next.inj (hu.symm.trans hexec)
    exact hstuck

/-! ### a moving stage with increment 0 -/

/-- A rising stage with increment 0 is stuck (42_eg_dexed.md R113 c). -/
theorem Dx.riseStep_of_inc_zero (c : Config) (g : Globals) (p : Params) {d : Dx} (hinc : d.inc = 0) :
    d.riseStep c g p = d := if_pos hinc

/-- So is a falling stage with increment 0 above its target: the level is stored as it was (42_eg_dexed.md R113 c). -/
theorem Dx.fallStep_of_inc_zero (c : Config) (g : Globals) (p : Params) {d : Dx} (hinc : d.inc = 0)
    (habove : d.target.toInt < d.level.toInt) : d.fallStep c g p = d := by
  have hstored : toI32 c .fall (d.level.toInt - d.inc.toInt) = d.level := by
    rw [hinc, show (0 : I32).toInt = 0 from rfl, sub_zero, toI32_self]
  rcases d.fallStep_cases c g p with ⟨hreached, -⟩ | ⟨-, hstep⟩
  · rw [hstored] at hreached
    exact absurd habove hreached.not_gt
  · rw [hstep, hstored]

/-- `DXSMP` where the engine stays as it is: the operator is written back, and only the response is new. -/
theorem exec_dxsmp_of_unchanged {s : State} {k : BitVec 8} {op : Operator} (hi : s.inited = true)
    (hop : s.ops[k.toNat]? = some op) (n : BitVec 32) (hd : op.dx.sample s.cfg s.g op.p (dxFrames n) = op.dx) :
    exec (.dxsmp k n) s = .next { s with responses := s.responses ++ [.int op.dx.level] } := by
  obtain ⟨_, hget⟩ := List.getElem?_eq_some_iff.mp hop
  have hsame : s.ops.set k.toNat { op with dx := op.dx } = s.ops := by rw [← hget, List.set_getElem_self]
  rw [exec_dxsmp_of_some hi hop n hd, hsame]

/-- Settles O39: neither update changes such a stage, so the engine is written back as it is. -/
theorem dxsmpStallsAtIncrementZero : Obligations.DxsmpStallsAtIncrementZero := by
  unfold Obligations.DxsmpStallsAtIncrementZero
  intro s k n op hi hop hhold hstage hinc hdirection
  have hmoving : op.dx.moving = true := op.dx.moving_iff.mpr hstage
  refine exec_dxsmp_of_unchanged hi hop n ?_
  rcases hdirection with hrising | ⟨hfalling, habove⟩
  · rw [Dx.sample_of_rising _ _ _ _ hhold hmoving hrising, Dx.riseStep_of_inc_zero _ _ _ hinc]
  · rw [Dx.sample_of_falling _ _ _ _ hhold hmoving hfalling, Dx.fallStep_of_inc_zero _ _ _ hinc habove]

end Sys2Proof.Machine
end

section
/-! PROOFS. In exact arithmetic every command keeps a legal state legal (70_reset_and_hazards.md R207), register by register and
engine by engine; so any number of steps from a legal state is safe. -/

namespace Sys2Proof.Machine

/-! ### the operands (10_state.md R12 to R17, 30_encoding.md R55) -/

theorem uq16_nonneg (v : BitVec 32) : 0 ≤ uq16 v := by
  unfold uq16
  positivity

theorem uq16_le (v : BitVec 32) : uq16 v ≤ 65535 + 65535 / 65536 := by
  have hv : (v.toNat : ℚ) ≤ 4294967295 := by exact_mod_cast Nat.le_pred_of_lt v.isLt
  unfold uq16
  linarith

theorem unitValue_range (v : BitVec 32) : 0 ≤ unitValue v ∧ unitValue v ≤ 1 :=
  ⟨le_min (uq16_nonneg v) zero_le_one, min_le_right _ _⟩

theorem detuneValue_range (v : BitVec 32) : -1 ≤ detuneValue v ∧ detuneValue v ≤ 1 := clampQ_bounds (sq16 v)

theorem f0Value_range (c : Config) (v : BitVec 32) :
    min 1 c.f0Max ≤ f0Value c v ∧ f0Value c v ≤ max 1 c.f0Max ∧ f0Value c v ≤ 65535 + 65535 / 65536 := by
  have hmax : max (uq16 v) 1 ≤ 65535 + 65535 / 65536 := max_le (uq16_le v) (by norm_num)
  exact ⟨min_le_min_right _ (le_max_right _ _), (min_le_right _ _).trans (le_max_right _ _), (min_le_left _ _).trans hmax⟩

section
variable {c : Config} (hexact : c.Exact)
include hexact

theorem Params.initial_legal : (Params.initial c).Legal c := by
  constructor <;> norm_num [Params.initial, hexact 0, hexact 1]

theorem Params.Legal.write {p : Params} (h : p.Legal c) (r : PReg) (v : BitVec 32) : (p.write c r v).Legal c := by
  cases r with
  | ratio =>
    refine { h with ratio := ?_ }
    simp only [Params.write, hexact (ratioValue v)]
    exact ⟨uq16_nonneg v, uq16_le v⟩
  | detune =>
    refine { h with detune := ?_ }
    simp only [Params.write, hexact (detuneValue v)]
    exact detuneValue_range v
  | olev =>
    refine { h with olev := ?_ }
    simp only [Params.write, hexact (unitValue v)]
    exact unitValue_range v
  | f0 =>
    refine { h with f0 := ?_ }
    simp only [Params.write, hexact (f0Value c v)]
    exact f0Value_range c v
  | _ => exact { h with }

end

/-! ### the DX7-style engine (41_eg_dx7.md R81, R82, R90) -/

theorem slev_range {c : Config} (hvalid : c.Valid) (raw : Fin 100) : 0 ≤ slev c raw ∧ slev c raw ≤ 1 :=
  hvalid.levelNorm_range _

theorem sustainSeg_eq {c : Config} (hexact : c.Exact) (level : ℚ) :
    sustainSeg c level = { dur := 0, dlDf := 1, startLevel := level, endLevel := level, asc := false } := by
  rw [sustainSeg, hexact, hexact, hexact]

theorem sustainSeg_legal {c : Config} (hexact : c.Exact) {level : ℚ} (hlevel : 0 ≤ level ∧ level ≤ 1) :
    (sustainSeg c level).Legal := by
  rw [sustainSeg_eq hexact]
  exact ⟨le_rfl, zero_lt_one, hlevel, hlevel, by simp, fun _ => le_rfl⟩

section
variable {c : Config} (hvalid : c.Valid) (hexact : c.Exact)
include hvalid hexact

theorem mkSeg_legal (rate : Fin 100) {st en : ℚ} (hst : 0 ≤ st ∧ st ≤ 1) (hen : 0 ≤ en ∧ en ≤ 1) :
    (mkSeg c rate st en).Legal := by
  obtain ⟨hpos, hlt⟩ := hvalid.rateConst_range rate
  have hframe : 0 < c.frameK := hvalid.frameK_pos
  have hstart : (mkSeg c rate st en).startLevel = st := hexact st
  have hend : (mkSeg c rate st en).endLevel = en := hexact en
  have hdelta : (mkSeg c rate st en).dlDf = scaleRate c rate st en := hexact _
  have hasc : (mkSeg c rate st en).asc = decide (st < en) := rfl
  refine ⟨?_, ?_, by rwa [hstart], by rwa [hend], by rw [hstart, hend, hasc], fun hflat => ?_⟩
  · rw [mkSeg, hexact, rateToFrames]
    positivity
  · rw [hdelta]
    by_cases h : st < en
    · rw [scaleRate_of_asc c rate h]
      positivity
    · rwa [scaleRate_of_not_asc c rate h]
  · rw [hasc, decide_eq_false_iff_not] at hflat
    rw [hdelta, scaleRate_of_not_asc c rate hflat]
    exact hlt.le

/-- Each segment begins at the level at which the one before it ends (41_eg_dx7.md R81). -/
theorem buildSteps_legal (p : Params) : (buildSteps c p).Legal where
  segs k := by
    have hzero : (0 : ℚ) ≤ 0 ∧ (0 : ℚ) ≤ 1 := ⟨le_rfl, zero_le_one⟩
    have h1 := slev_range hvalid p.egL1
    have h2 := slev_range hvalid p.egL2
    have h3 := slev_range hvalid p.egL3
    cases k with
    | e1 => exact mkSeg_legal hvalid hexact _ hzero h1
    | e2 => exact mkSeg_legal hvalid hexact _ h1 h2
    | e3 => exact mkSeg_legal hvalid hexact _ h2 h3
    | esustain => exact sustainSeg_legal hexact h3
    | e4 => exact mkSeg_legal hvalid hexact _ h3 hzero
  attack := hexact 0
  decay := rfl
  decay2 := rfl
  sustain := ⟨rfl, rfl⟩
  hold := ⟨hexact 1, hexact 0⟩
  release := rfl
  silence := hexact 0

theorem Eg.initial_legal : (Eg.initial c).Legal where
  step := buildSteps_legal hvalid hexact _
  level := by
    have hlevel : (Eg.initial c).level = 0 := hexact 0
    rw [hlevel]
    exact ⟨le_rfl, zero_le_one⟩

end

/-- The level that `eg_advance` clamps and multiplies is positive. -/
theorem Eg.Legal.moved_pos {e : Eg} (h : e.Legal) : 0 < e.moved :=
  mul_pos (lt_max_of_lt_right (by norm_num [egEps])) (h.step.segs e.cur).dlDf

/-- A segment that does not ascend does not raise the level above 1. -/
theorem Eg.Legal.moved_le_one_of_flat {e : Eg} (h : e.Legal) (hflat : (e.step.get e.cur).asc = false) : e.moved ≤ 1 := by
  have hseg := h.step.segs e.cur
  have hclamped : max e.level egEps ≤ 1 := max_le h.level.2 (by norm_num [egEps])
  exact mul_le_one₀ hclamped hseg.dlDf.le (hseg.flat hflat)

/-- The release step does not ascend: it ends at level 0 (41_eg_dx7.md R81). -/
theorem StepTable.Legal.release_flat {t : StepTable} (h : t.Legal) : t.e4.asc = false := by
  have hseg : t.e4.Legal := h.segs .e4
  obtain ⟨hstart, -⟩ := hseg.startLevel
  rw [hseg.asc, h.silence]
  exact decide_eq_false hstart.not_gt

/-- An ascending segment that has not ended is below its end level; one that does not ascend does not grow (41_eg_dx7.md R90). -/
theorem Eg.Legal.moved_le_one {e : Eg} (h : e.Legal)
    (hstay : e.cur = .e4 ∨ (e.step.get e.cur).done (frameSucc e.frame) e.moved = false) : e.moved ≤ 1 := by
  cases hasc : (e.step.get e.cur).asc with
  | false => exact h.moved_le_one_of_flat hasc
  | true =>
    have hcur : e.cur ≠ .e4 := by
      intro hcur
      rw [hcur] at hasc
      exact nomatch hasc.symm.trans h.step.release_flat
    have hnot := hstay.resolve_left hcur
    rw [← Bool.not_eq_true, Seg.done_iff, if_pos hasc, not_or, not_or, not_lt, not_lt] at hnot
    obtain ⟨-, -, hbelow⟩ := hnot
    exact hbelow.trans (h.step.segs e.cur).endLevel.2

namespace Eg.Legal

variable {c : Config} {e : Eg}

theorem advance (hexact : c.Exact) (h : e.Legal) : (e.advance c).Legal where
  step := by rw [Eg.advance_step]; exact h.step
  level := by
    rcases e.advance_cases c with ⟨-, -, hadv⟩ | ⟨hstay, hadv⟩ <;> rw [hadv] <;> dsimp only <;> rw [hexact]
    · exact (h.step.segs e.cur).endLevel
    · exact ⟨h.moved_pos.le, h.moved_le_one hstay⟩

theorem noteOn (hexact : c.Exact) (h : e.Legal) : (e.noteOn c).Legal where
  step := h.step
  level := by
    have hlevel : (e.noteOn c).level = 0 := hexact 0
    rw [hlevel]
    exact ⟨le_rfl, zero_le_one⟩

theorem noteOff (h : e.Legal) : e.noteOff.Legal := ⟨h.step, h.level⟩

end Eg.Legal

/-! ### the Dexed-style engine (42_eg_dexed.md R103, R105, R107, 10_state.md R22) -/

/-- No hold count is negative, also where it overflows (10_state.md R22). -/
theorem dxHold_nonneg (c : Config) {g : Globals} (hg : 0 ≤ g.srmult.toInt) (r : Fin 100) : 0 ≤ (dxHold c g r).toInt := by
  have hscaled : 0 ≤ asr ((dxHoldCount c r : Int) * g.srmult.toInt) 24 :=
    Int.ediv_nonneg (mul_nonneg (Int.natCast_nonneg _) hg) (by norm_num)
  unfold dxHold
  dsimp only
  split
  next hfits => rwa [toInt_ofInt_of_fits _ hfits]
  next =>
    rw [U31.toI32_toInt]
    exact Int.natCast_nonneg _

theorem Dx.initial_legal : Dx.initial.Legal := by
  constructor <;> decide

namespace Dx.Legal

variable {c : Config} {g : Globals} (hg : 0 ≤ g.srmult.toInt) (p : Params) {d : Dx}
include hg

/-- A stage with a pair gets a hold that is not negative; stage 4 keeps the count, so it is to be entered with none. -/
theorem enter (h : d.Legal) {n : Fin 5} (hlast : n.val = 4 → d.staticcount.toInt ≤ 0) : (Dx.enter c g p d n).Legal := by
  unfold Dx.enter
  split
  next hn =>
    refine ⟨fun _ => Nat.le_of_lt_succ hn, ?_, ?_⟩ <;> dsimp only
    · rw [dxIncrement, U31.toI32_toInt]
      exact Int.natCast_nonneg _
    · split
      · exact dxHold_nonneg c hg _
      · decide
  next hn =>
    have hnone : d.staticcount.toInt ≤ 0 := hlast (by omega)
    exact ⟨fun hhold => absurd hhold hnone.not_gt, h.inc, h.staticcount⟩

/-- Without a hold every stage can be entered. -/
theorem land (h : d.Legal) (hhold : d.staticcount.toInt ≤ 0) : (d.land c g p).Legal :=
  enter hg p (d := { d with level := d.target }) ⟨h.hold, h.inc, h.staticcount⟩ fun _ => hhold

theorem holdStep (h : d.Legal) (n : Nat) : (d.holdStep c g p n).Legal := by
  rcases le_or_gt (d.staticcount.toInt - n) 0 with hout | hgoes
  · rw [Dx.holdStep_of_le c g p n hout]
    refine enter hg p (d := { d with staticcount := 0 }) ⟨?_, h.inc, le_rfl⟩ fun _ => le_rfl
    exact fun hhold => absurd hhold (lt_irrefl _)
  · obtain ⟨x, hx, hstep⟩ := Dx.holdStep_of_lt c g p n hgoes
    rw [hstep]
    exact ⟨fun _ => h.hold (by omega), h.inc, by dsimp only; omega⟩

theorem sample (h : d.Legal) (n : Nat) : (d.sample c g p n).Legal := by
  rcases d.sample_cases c g p n with ⟨-, hs⟩ | ⟨hhold, -, -, hs⟩ | ⟨hhold, -, -, hs⟩ | ⟨-, -, hs⟩ <;> rw [hs]
  · exact h.holdStep hg p n
  · rcases d.riseStep_cases c g p with ⟨-, hstep⟩ | ⟨-, -, hstep⟩ | ⟨-, -, hstep⟩ <;> rw [hstep]
    · exact h
    · exact h.land hg p hhold
    · exact ⟨h.hold, h.inc, h.staticcount⟩
  · rcases d.fallStep_cases c g p with ⟨-, hstep⟩ | ⟨-, hstep⟩ <;> rw [hstep]
    · exact h.land hg p hhold
    · exact ⟨h.hold, h.inc, h.staticcount⟩
  · exact h

theorem update (h : d.Legal) : (d.update c g p).Legal := by
  by_cases hheld : d.down = true ∧ d.ix.val = 3
  · rw [Dx.update_held c g p hheld]
    exact h.enter hg p nofun
  · rwa [Dx.update_other c g p hheld]

theorem key (h : d.Legal) (down : Bool) : (d.key c g p down).Legal := by
  by_cases hdown : d.down = down
  · rwa [← hdown, Dx.key_same]
  · rw [Dx.key_change c g p hdown]
    exact enter hg p (d := { d with down := down }) ⟨h.hold, h.inc, h.staticcount⟩ (by cases down <;> nofun)

end Dx.Legal

/-! ### one operator -/

theorem Operator.initial_legal {c : Config} (hvalid : c.Valid) (hexact : c.Exact) (v : Variant) (n : Nat) :
    (Operator.initial c n).Legal c v where
  params := Params.initial_legal hexact
  row w hw := by
    rw [List.eq_of_mem_replicate hw, hexact]
    exact ⟨le_rfl, zero_le_one⟩
  eg := Eg.initial_legal hvalid hexact
  dx := Dx.initial_legal
  ph := by simp [Operator.initial, hexact 0]
  prev _ := by simp [Operator.initial, hexact 0]

namespace Operator.Legal

variable {c : Config} {v : Variant} {g : Globals} {op : Operator}

theorem withEg (h : op.Legal c v) {e : Eg} (he : e.Legal) : { op with eg := e }.Legal c v := { h with eg := he }

theorem withDx (h : op.Legal c v) {d : Dx} (hd : d.Legal) : { op with dx := d }.Legal c v := { h with dx := hd }

theorem withPhase (h : op.Legal c v) {x : ℚ} (hx : 0 ≤ x ∧ x < 1) : { op with ph := x }.Legal c v := { h with ph := hx }

theorem markDx (h : op.Legal c v) : op.markDx.Legal c v := { h with }

theorem writeParam (hexact : c.Exact) (h : op.Legal c v) (r : PReg) (x : BitVec 32) : (op.writeParam c r x).Legal c v :=
  { h with params := h.params.write hexact r x }

theorem setWeight (hexact : c.Exact) (h : op.Legal c v) (j : Nat) (w : BitVec 32) :
    (op.setWeight c j (unitValue w)).Legal c v := by
  refine { h with row := fun x hx => ?_ }
  rw [Operator.setWeight_row, hexact] at hx
  rcases List.mem_or_eq_of_mem_set hx with hold | rfl
  · exact h.row x hold
  · exact unitValue_range w

theorem egRefresh (hvalid : c.Valid) (hexact : c.Exact) (h : op.Legal c v) : (op.egRefresh c).Legal c v :=
  { h with eg := ⟨buildSteps_legal hvalid hexact op.p, h.eg.level⟩ }

theorem egAdvance (hexact : c.Exact) (h : op.Legal c v) : (op.egAdvance c).Legal c v := h.withEg (h.eg.advance hexact)

theorem dxSample (hg : 0 ≤ g.srmult.toInt) (h : op.Legal c v) (n : Nat) : (op.dxSample c g n).Legal c v :=
  h.withDx (h.dx.sample hg op.p n)

theorem dxKey (hg : 0 ≤ g.srmult.toInt) (h : op.Legal c v) (down : Bool) : (op.dxKey c g down).Legal c v :=
  h.withDx (h.dx.key hg op.p down)

theorem dxRefresh (hg : 0 ≤ g.srmult.toInt) (h : op.Legal c v) : (op.dxRefresh c g).Legal c v :=
  { h with dx := h.dx.update hg op.p }

theorem noteOn (hexact : c.Exact) (hg : 0 ≤ g.srmult.toInt) (h : op.Legal c v) (u : Variant) :
    (op.noteOn c u g).Legal c v := by
  have hzero : 0 ≤ c.rnd 0 ∧ c.rnd 0 < 1 := by simp [hexact 0]
  cases u with
  | fm => exact (h.withEg (h.eg.noteOn hexact)).withPhase hzero
  | sw => exact (h.dxKey hg true).withPhase hzero

theorem noteOff (hg : 0 ≤ g.srmult.toInt) (h : op.Legal c v) (u : Variant) : (op.noteOff c u g).Legal c v := by
  cases u with
  | fm => exact h.withEg h.eg.noteOff
  | sw => exact h.dxKey hg false

theorem refresh (hvalid : c.Valid) (hexact : c.Exact) (hg : 0 ≤ g.srmult.toInt) (h : op.Legal c v) (u : Variant) :
    (op.refresh c u g).Legal c v := by
  cases u <;> unfold Operator.refresh <;> dsimp only <;> split
  · exact h.egRefresh hvalid hexact
  · exact h
  · exact h.dxRefresh hg
  · exact h

theorem stepEngine (hexact : c.Exact) (hg : 0 ≤ g.srmult.toInt) (h : op.Legal c v) (u : Variant) :
    (op.stepEngine c u g).Legal c v := by
  cases u with
  | fm => exact h.egAdvance hexact
  | sw => exact h.dxSample hg 1

/-- An output buffer takes what is at most 1 in size, where the variant is `FM` (43_operator_mod_mix.md R137). -/
theorem setPrev (hexact : c.Exact) (h : op.Legal c v) (b : Bool) {y : ℚ} (hy : v = .fm → |y| ≤ 1) :
    (op.setPrev c b y).Legal c v := by
  rw [Operator.setPrev_eq, hexact]
  refine { h with prev := fun hfm => ?_ }
  obtain ⟨h0, h1⟩ := h.prev hfm
  cases b
  · exact ⟨hy hfm, h1⟩
  · exact ⟨h0, hy hfm⟩

theorem tickOperator {s : State} (hexact : s.cfg.Exact) (hg : 0 ≤ s.g.srmult.toInt) {op : Operator}
    (h : op.Legal s.cfg s.variant) (a : Nat) : (s.tickOperator a op).Legal s.cfg s.variant := by
  have hvalid : s.cfg.Valid := Config.of_valid s.numeric
  have hphase : 0 ≤ op.nextPhase s.cfg s.g ∧ op.nextPhase s.cfg s.g < 1 := by
    rw [Operator.nextPhase, hexact, wrap01_of_exact hvalid hexact]
    exact ⟨Int.fract_nonneg _, Int.fract_lt_one _⟩
  exact ((h.stepEngine hexact hg s.variant).withPhase hphase).setPrev hexact (!s.pp)
    fun hfm => State.abs_output_le_one hexact hfm h.eg a

end Operator.Legal

/-! ### the whole state -/

namespace State.Legal

variable {s t : State}

/-- A state of the same block, as stuck as a legal one, is legal where its global registers and its operators are. -/
theorem of_parts (h : s.Legal) (hsame : s.SameInstance t) (hstuck : t.stuck = s.stuck) (hg : t.g.Legal s.cfg)
    (hops : ∀ op ∈ t.ops, op.Legal s.cfg s.variant ∧ op.row.length = s.nops) : t.Legal := by
  have hcfg : t.cfg = s.cfg := congrArg Config.of hsame.numeric
  refine ⟨hstuck.trans h.running, ?_, by rwa [hcfg], fun op hop => ?_⟩
  · refine ⟨?_, ?_, ?_, fun op hop => ?_⟩ <;> rw [hsame.nops]
    · exact h.shape.nops_pos
    · exact h.shape.nops_le
    · rw [hsame.variant]
      exact h.shape.sw_two
    · exact (hops op hop).2
  · rw [hcfg, hsame.variant]
    exact (hops op hop).1

theorem operator (h : s.Legal) {op : Operator} (hop : op ∈ s.ops) :
    op.Legal s.cfg s.variant ∧ op.row.length = s.nops := ⟨h.operators op hop, h.shape.rows op hop⟩

theorem withPort (h : s.Legal) (ws : List Word) : { s with port := ws }.Legal :=
  h.of_parts (.withPort s ws) rfl h.globals fun _ => h.operator

theorem withGlobals (h : s.Legal) {g : Globals} (hg : g.Legal s.cfg) : { s with g := g }.Legal :=
  h.of_parts (.withGlobals s g) rfl hg fun _ => h.operator

theorem gated {f : State → State} (h : s.Legal) (hf : (f s).Legal) : (gated f s).Legal := by
  rcases gated_cases f s with ⟨-, heq⟩ | ⟨-, heq⟩ <;> rw [heq]
  · exact hf
  · exact h

/-- Acting on one operator, or on all, keeps a state legal where it keeps every operator so, and the length of its row. -/
theorem onOperator (h : s.Legal) (k : BitVec 8) {f : Operator → Operator × List Response}
    (hf : ∀ op : Operator, op.Legal s.cfg s.variant → (f op).1.Legal s.cfg s.variant)
    (hrow : ∀ op, (f op).1.row.length = op.row.length) : (s.onOperator k f).Legal := by
  refine h.of_parts (.onOperator s k f) (s.onOperator_stuck k f) (by rw [State.onOperator_g]; exact h.globals) fun x hx => ?_
  rcases State.mem_onOperator hx with hold | ⟨op, hop, rfl⟩
  · exact h.operator hold
  · obtain ⟨hlegal, hlength⟩ := h.operator hop
    exact ⟨hf op hlegal, (hrow op).trans hlength⟩

theorem onAll (h : s.Legal) {f : Operator → Operator}
    (hf : ∀ op : Operator, op.Legal s.cfg s.variant → (f op).Legal s.cfg s.variant)
    (hrow : ∀ op, (f op).row.length = op.row.length) : (s.onAll f).Legal := by
  refine h.of_parts (.onAll s f) (s.onAll_stuck f) h.globals fun x hx => ?_
  obtain ⟨op, hop, rfl⟩ := List.mem_map.mp hx
  obtain ⟨hlegal, hlength⟩ := h.operator hop
  exact ⟨hf op hlegal, (hrow op).trans hlength⟩

end State.Legal

/-! ### the updates of the whole state, and the commands -/

theorem Operator.noteOn_row (c : Config) (v : Variant) (g : Globals) (op : Operator) : (op.noteOn c v g).row = op.row := by
  cases v <;> rfl

theorem Operator.noteOff_row (c : Config) (v : Variant) (g : Globals) (op : Operator) : (op.noteOff c v g).row = op.row := by
  cases v <;> rfl

theorem Operator.refresh_row (c : Config) (v : Variant) (g : Globals) (op : Operator) : (op.refresh c v g).row = op.row := by
  cases v <;> unfold Operator.refresh <;> dsimp only <;> split <;> rfl

theorem State.tickOperator_row (s : State) (a : Nat) (op : Operator) : (s.tickOperator a op).row = op.row := by
  rw [State.tickOperator, Operator.setPrev_eq]
  cases s.variant <;> rfl

theorem Globals.initial_legal (c : Config) (sr : BitVec 32) : (Globals.initial c sr).Legal c where
  sr := (le_max_right _ _).trans_eq (sampleRateValue_toNat sr).symm
  srmult := (Globals.initial_dxBounded c sr).srmult
  maxenv := Nat.zero_le _

namespace State.Legal

variable {s : State} (hexact : s.cfg.Exact)
include hexact

theorem initialise (h : s.Legal) (sr : BitVec 32) : (s.initialise sr).Legal := by
  have hvalid : s.cfg.Valid := Config.of_valid s.numeric
  refine h.of_parts (.initialise s sr) (s.initialise_stuck sr) (Globals.initial_legal s.cfg sr) fun op hop => ?_
  rw [List.eq_of_mem_replicate hop]
  exact ⟨Operator.initial_legal hvalid hexact s.variant s.nops, List.length_replicate⟩

theorem writeGlobal (h : s.Legal) (r : GReg) (v : BitVec 32) : (s.writeGlobal r v).Legal := by
  obtain ⟨hsr, hsrmult, hmaxenv⟩ := h.globals
  cases r with
  | f0all => exact h.onAll (fun op hop => { hop with params := hop.params.write hexact .f0 v }) fun _ => rfl
  | route => exact h.withGlobals ⟨hsr, hsrmult, hmaxenv⟩
  | fbamt => exact h.withGlobals ⟨hsr, hsrmult, hmaxenv⟩
  | maxenv =>
    have hg : { s.g with maxenv := maxenvValue s.cfg v }.Legal s.cfg := ⟨hsr, hsrmult, maxenvValue_toNat_le s.cfg v⟩
    exact (h.withGlobals hg).onAll (fun op hop => hop.markDx) fun _ => rfl

theorem refreshAll (h : s.Legal) : s.refreshAll.Legal :=
  h.onAll (fun _ hop => hop.refresh (Config.of_valid s.numeric) hexact h.globals.srmult s.variant)
    fun op => congrArg List.length (op.refresh_row s.cfg s.variant s.g)

theorem ticked (h : s.Legal) : s.ticked.Legal := by
  refine h.of_parts ⟨s.ticked_variant, s.ticked_numeric, s.ticked_nops⟩ s.ticked_stuck h.globals fun x hx => ?_
  obtain ⟨a, ha⟩ := List.mem_iff_getElem?.mp hx
  rw [State.ticked_getElem?, Option.map_eq_some_iff] at ha
  obtain ⟨op, hop, rfl⟩ := ha
  obtain ⟨hlegal, hlength⟩ := h.operator (List.mem_of_getElem? hop)
  exact ⟨hlegal.tickOperator hexact h.globals.srmult a, (congrArg List.length (s.tickOperator_row a op)).trans hlength⟩

theorem sampleTicks (n : Nat) (h : s.Legal) : (sampleTicks n s).Legal := by
  induction n generalizing s with
  | zero => exact h
  | succ n ih =>
    rw [Machine.sampleTicks, sampleTick_of_exact hexact]
    exact ih (s := s.ticked) hexact (h.ticked hexact)

/-- Every command completes and keeps a legal state legal. -/
theorem exec (h : s.Legal) (i : Instr) : ∃ t, exec i s = .next t ∧ t.Legal := by
  have hvalid : s.cfg.Valid := Config.of_valid s.numeric
  have hg : 0 ≤ s.g.srmult.toInt := h.globals.srmult
  cases i with
  | nop => exact ⟨s, rfl, h⟩
  | init sr => exact ⟨_, exec_init sr s, h.initialise hexact sr⟩
  | wrg sel v =>
    cases hsel : gregOf sel with
    | none => exact ⟨s, exec_wrg_unnamed hsel v s, h⟩
    | some r => exact ⟨_, exec_wrg_named hsel v s, h.gated (h.writeGlobal hexact r v)⟩
  | wrp k sel v =>
    cases hsel : pregOf sel with
    | none => exact ⟨s, exec_wrp_unnamed hsel k v s, h⟩
    | some r =>
      exact ⟨_, exec_wrp_named hsel k v s, h.gated (h.onOperator k (fun _ hop => hop.writeParam hexact r v) fun _ => rfl)⟩
  | wrm k j w =>
    refine ⟨_, exec_wrm k j w s, h.gated ?_⟩
    split
    · exact h.onOperator k (fun _ hop => hop.setWeight hexact j.toNat w) fun _ => List.length_set
    · exact h
  | noteon =>
    exact ⟨_, exec_noteon s, h.gated (h.onAll (fun _ hop => hop.noteOn hexact hg s.variant)
      fun op => congrArg List.length (op.noteOn_row s.cfg s.variant s.g))⟩
  | noteoff =>
    exact ⟨_, exec_noteoff s, h.gated (h.onAll (fun _ hop => hop.noteOff hg s.variant)
      fun op => congrArg List.length (op.noteOff_row s.cfg s.variant s.g))⟩
  | tick => exact ⟨_, exec_tick s, h.gated (h.sampleTicks hexact 1)⟩
  | render n => exact ⟨_, exec_render n s, h.gated (sampleTicks (s := s.refreshAll) hexact n.toNat (h.refreshAll hexact))⟩
  | egset k =>
    exact ⟨_, exec_egset k s, h.gated (h.onOperator k (fun _ hop => hop.egRefresh hvalid hexact) fun _ => rfl)⟩
  | egon k =>
    exact ⟨_, exec_egon k s, h.gated (h.onOperator k (fun _ hop => hop.withEg (hop.eg.noteOn hexact)) fun _ => rfl)⟩
  | egoff k => exact ⟨_, exec_egoff k s, h.gated (h.onOperator k (fun _ hop => hop.withEg hop.eg.noteOff) fun _ => rfl)⟩
  | egadv k => exact ⟨_, exec_egadv k s, h.gated (h.onOperator k (fun _ hop => hop.egAdvance hexact) fun _ => rfl)⟩
  | dxkey k down =>
    exact ⟨_, exec_dxkey k down s, h.gated (h.onOperator k (fun _ hop => hop.dxKey hg down) fun _ => rfl)⟩
  | dxupd k => exact ⟨_, exec_dxupd k s, h.gated (h.onOperator k (fun _ hop => hop.dxRefresh hg) fun _ => rfl)⟩
  | dxsmp k n =>
    exact ⟨_, exec_dxsmp k n s, h.gated (h.onOperator k (fun _ hop => hop.dxSample hg (dxFrames n)) fun _ => rfl)⟩

/-- Every step completes and keeps a legal state legal (60_exceptions.md R180, 70_reset_and_hazards.md R207). -/
theorem step (h : s.Legal) : ∃ t, step s = .next t ∧ t.Legal := by
  rcases step_cases s with ⟨-, hstep⟩ | ⟨-, rest, -, -, -, -, -, hstep⟩ | ⟨-, rest, i, -, -, -, hstep⟩ <;> rw [hstep]
  · exact ⟨s, rfl, h⟩
  · exact ⟨_, rfl, h.withPort rest⟩
  · exact exec (s := { s with port := rest }) hexact (h.withPort rest) i

end State.Legal

/-- Settles O58, by induction on the number of steps: a step keeps the state legal and the block the same. -/
theorem runsFromLegalStatesAreSafe : Obligations.RunsFromLegalStatesAreSafe := by
  unfold Obligations.RunsFromLegalStatesAreSafe
  intro n
  induction n with
  | zero => exact fun s _ h => h
  | succ n ih =>
    intro s hexact h
    obtain ⟨t, hstep, ht⟩ := h.step hexact
    have hcfg : t.cfg = s.cfg := congrArg Config.of (sameInstance_of_step hstep).numeric
    exact ⟨h, t, hstep, ih t (hcfg ▸ hexact) ht⟩

end Sys2Proof.Machine
end

section
/-! PROOFS. In exact arithmetic every step keeps a legal state legal (70_reset_and_hazards.md R207). -/

namespace Sys2Proof.Machine

/-- Settles O57: the state that `State.Legal.step` finds legal is the one the step leads to. -/
theorem stepKeepsTheStateLegal : Obligations.StepKeepsTheStateLegal := by
  unfold Obligations.StepKeepsTheStateLegal
  intro s t hexact hlegal hstep
  obtain ⟨u, hu, hulegal⟩ := hlegal.step hexact
  obtain rfl : t = u := Host.Outcome.next.inj (hstep.symm.trans hu)
  exact hulegal

end Sys2Proof.Machine
end
